-- ==== Sys2Proof/Word.lean ====
section
/-! DEFINITION. The words of the machine, named for what they hold (10_state.md, 00_scope.md R14): unsigned
bit vectors with bit 0 the least significant. -/

namespace Sys2Proof

/-- The data of every access: one byte (R101). -/
abbrev Byte := BitVec 8

/-- The CPU side of a port access, `rw` in bit 16 over the CPU address in bits 15:0 (R120). -/
abbrev AccessWord := BitVec 17

/-- A CPU address (R83). -/
abbrev CpuAddr := BitVec 16

/-- An address on the PPU bus (R81). -/
abbrev BusAddr := BitVec 14

/-- The scroll registers `v` and `t` (R42, R127). -/
abbrev VAddr := BitVec 15

/-- A shift buffer (R47). -/
abbrev Shifter := BitVec 16

/-- A palette entry's colour (R51). -/
abbrev Colour := BitVec 6

/-- An output index: three emphasis bits over a colour (R287). -/
abbrev OutIndex := BitVec 9

end Sys2Proof
end

