-- ==== Sys2Proof/Config.lean ====
section
/-! DEFINITION. What an implementation fixes (00_scope.md R9-R13), the shape in which memory is held, and the free
values: every `draw` of the spec (R17) and every oracle (R16) is one of the body-less constants below. -/

namespace Sys2Proof

/-- The video standard `STD` (R9). -/
inductive Std where
  | ntsc
  | pal
  deriving DecidableEq, Repr

/-- The sprite limit `SPRITE_LIMIT` (R11). -/
inductive SpriteLimit where
  | eight
  | unlimited
  deriving DecidableEq, Repr

/-- The parameters an instance is built with (R9, R11, R12, R344). -/
structure Setup where
  std         : Std
  limit       : SpriteLimit
  overflowBug : Bool
  deriving DecidableEq, Repr

/-- The geometry of a substrate (R90): `SPACE`, `PAGE` and `NSRC`; `NPAGES = SPACE / PAGE`. -/
structure Geometry where
  space : Nat
  page  : Nat
  nsrc  : Nat
  deriving DecidableEq, Repr

/-- The block's two substrate instances (R52). -/
inductive Sub where
  | chr
  | nmt
  deriving DecidableEq, Repr

/-- What a store reads as at an address it does not list: a fixed value, or free values taken from the draw numbered
`base` on, one per address (R17, R59). -/
inductive Fill (w : Nat) where
  | const (c : BitVec w)
  | drawn (base : Nat)
  deriving DecidableEq, Repr

/-- A memory of `w`-bit cells: the cells listed, by rising address, over a fill. A `Store 8` lists `Host.Cell`s. -/
structure Store (w : Nat) where
  fill  : Fill w
  cells : List (Nat × BitVec w)
  deriving DecidableEq, Repr

/-- FREE VALUE: the value of the draw numbered `n` (R17 `draw`; I1, I9-I13, I17); its low bits serve a narrower draw.
Log entry 4. -/
opaque Config.free (n : Nat) : BitVec 16

/-- FREE VALUE: what the mapper's accessor `h`, installed on page `p` of `x`, answers to the read numbered `n`, at
substrate address `a` (R13 `HOOK`, R156, I16). Log entry 16. -/
opaque Config.hookByte (n : Nat) (x : Sub) (p a h : Nat) : BitVec 8

/-- FREE VALUE: what the CPU collaborator's memory answers to DMA's read numbered `n`, at CPU address `a`
(R13 `CpuRead`, R16, R330). Log entry 15. -/
opaque Config.cpuByte (n : Nat) (a : BitVec 16) : BitVec 8

end Sys2Proof
end

