-- ==== Sys2Proof/Machine/Params.lean ====
section
/-! DEFINITION. The numbers of the parameter tables (00_scope.md R10, R13). -/

namespace Sys2Proof

/-- Visible scanlines: lines 0 to `visible - 1`. -/
def Std.visible : Std → Nat
  | .ntsc => 240
  | .pal => 240

/-- The post-render line. -/
def Std.postLine : Std → Nat
  | .ntsc => 240
  | .pal => 240

/-- The number of vblank lines. -/
def Std.vblLines : Std → Nat
  | .ntsc => 20
  | .pal => 70

/-- The first vblank line. -/
def Std.vblFirst : Std → Nat
  | .ntsc => 241
  | .pal => 241

/-- The pre-render line. -/
def Std.pre : Std → Nat
  | .ntsc => 261
  | .pal => 311

/-- Scanlines per frame. -/
def Std.lines : Std → Nat
  | .ntsc => 262
  | .pal => 312

/-- Dots per scanline. -/
def Std.dots : Std → Nat
  | .ntsc => 341
  | .pal => 341

/-- Dots per frame without the skip. -/
def Std.frameLong : Std → Nat
  | .ntsc => 89342
  | .pal => 106392

/-- Dots in a frame with the skip; the PAL standard has none, and no rule reads this value for it. -/
def Std.frameShort : Std → Nat
  | .ntsc => 89341
  | .pal => 106392

/-- Whether the short-frame rule applies. -/
def Std.oddSkip : Std → Bool
  | .ntsc => true
  | .pal => false

/-- Master-clock cycles per dot. -/
def Std.dotMaster : Std → Nat
  | .ntsc => 4
  | .pal => 5

/-- Master-clock cycles per CPU cycle (R343: the CPU collaborator's; no rule of the block reads it). -/
def Std.cpuMaster : Std → Nat
  | .ntsc => 12
  | .pal => 16

/-- `WARMUP_FRAMES` (R13). -/
def warmUpFrames : Nat := 2

/-- `EVAL_DOT` (R13). -/
def evalDot : Nat := 256

/-- `NMI_CANCEL_SLOTS` (R13). -/
def nmiCancelSlots : Nat := 2

/-- `DMA_STALL`, in CPU cycles (R13, R331). -/
def dmaStall : Nat := 513

/-- `CIRAM_SIZE` (R13). -/
def ciramSize : Nat := 2048

/-- The geometry of `CHR` (R13, R90). -/
def chrGeometry : Geometry := { space := 8192, page := 1024, nsrc := 2 }

/-- The geometry of `NMT` (R13, R90). -/
def nmtGeometry : Geometry := { space := 4096, page := 1024, nsrc := 2 }

/-- `SLOTS`: the number of output slots (R50). -/
def SpriteLimit.slots : SpriteLimit → Nat
  | .eight => 8
  | .unlimited => 64

/-- The most entries the secondary buffer holds (R49, R244 `cap`). -/
def SpriteLimit.cap : SpriteLimit → Nat
  | .eight => 8
  | .unlimited => 64

/-- `renderLine(L)` (R18). -/
def Std.renderLine (std : Std) (line : Nat) : Bool :=
  decide (line < std.visible) || decide (line = std.pre)

/-- `visibleLine(L)` (R18). -/
def Std.visibleLine (std : Std) (line : Nat) : Bool :=
  decide (line < std.visible)

end Sys2Proof
end

