-- ==== Sys2Proof/Machine/Store.lean ====
section
/-! DEFINITION. Memory: lists of (address, value) cells in one canonical form, and reading and writing one cell.
What an unlisted address reads as is `Store.unlisted`, once for every store. -/

namespace Sys2Proof

/-- The value listed at address `a`, if any. -/
def Cells.get {α : Type} (cells : List (Nat × α)) (a : Nat) : Option α :=
  match cells with
  | [] => none
  | (k, v) :: rest => if k = a then some v else Cells.get rest a

/-- The cells with `v` listed at `a`, in its place by address. -/
def Cells.put {α : Type} (cells : List (Nat × α)) (a : Nat) (v : α) : List (Nat × α) :=
  match cells with
  | [] => [(a, v)]
  | (k, u) :: rest =>
    if a < k then (a, v) :: (k, u) :: rest
    else if a = k then (a, v) :: rest
    else (k, u) :: Cells.put rest a v

/-- The cells with nothing listed at `a`. -/
def Cells.del {α : Type} (cells : List (Nat × α)) (a : Nat) : List (Nat × α) :=
  match cells with
  | [] => []
  | (k, u) :: rest => if a = k then rest else (k, u) :: Cells.del rest a

/-- Every address listed is at least `lo`, and the addresses rise strictly. -/
def Cells.rising {α : Type} (lo : Nat) (cells : List (Nat × α)) : Bool :=
  match cells with
  | [] => true
  | (k, _) :: rest => decide (lo ≤ k) && Cells.rising (k + 1) rest

variable {w : Nat}

/-- What an unlisted address reads as: the fill's fixed value, or the free value of the fill's draw for that address
(R59, R60, R150; log entries 6 and 7). -/
def Store.unlisted (m : Store w) (a : Nat) : BitVec w :=
  match m.fill with
  | .const c => c
  | .drawn base => (Config.free (base + a)).setWidth w

/-- The value at address `a`. -/
def Store.read (m : Store w) (a : Nat) : BitVec w :=
  (Cells.get m.cells a).getD (m.unlisted a)

/-- Whether writing `v` leaves an address as the fill has it, so that it is not listed. A drawn fill is no known value:
a write over it is always listed (log entry 7). -/
def Store.isFill (m : Store w) (v : BitVec w) : Bool :=
  match m.fill with
  | .const c => v == c
  | .drawn _ => false

/-- The store with `v` at address `a`. -/
def Store.write (m : Store w) (a : Nat) (v : BitVec w) : Store w :=
  { m with cells := if m.isFill v then Cells.del m.cells a else Cells.put m.cells a v }

/-- The canonical form: addresses strictly rising, and no cell listed that the fill's fixed value already gives. -/
def Store.wf (m : Store w) : Bool :=
  Cells.rising 0 m.cells && m.cells.all fun c => !m.isFill c.2

/-- Every listed address is below `n`. -/
def Store.below (m : Store w) (n : Nat) : Bool :=
  m.cells.all fun c => decide (c.1 < n)

/-- The store that lists nothing and reads as `c` everywhere. -/
def Store.blank (c : BitVec w) : Store w :=
  { fill := .const c, cells := [] }

/-- The store that lists nothing and reads as the free values from draw `base` on. -/
def Store.drawn (base : Nat) : Store w :=
  { fill := .drawn base, cells := [] }

/-- The cells of a byte sequence whose first byte is at `i`, zero bytes left out. -/
def Cells.ofBytes (i : Nat) (bytes : List (BitVec w)) : List (Nat × BitVec w) :=
  match bytes with
  | [] => []
  | b :: rest => if b = 0 then Cells.ofBytes (i + 1) rest else (i, b) :: Cells.ofBytes (i + 1) rest

/-- The store holding a byte sequence from address 0, and 0 past it. -/
def Store.ofBytes (bytes : List (BitVec w)) : Store w :=
  { fill := .const 0, cells := Cells.ofBytes 0 bytes }

/-- The first `n` values of a store, in address order. -/
def Store.toBytes (m : Store w) (n : Nat) : List (BitVec w) :=
  (List.range n).map m.read

end Sys2Proof
end

