-- ==== Sys2Proof/Syntax.lean ====
section
/-! DEFINITION. The operations of the block (00_scope.md R2): one constructor per row of opcode_table.json. Port
accesses carry the data byte of a write, collaborator calls their operands, dot micro-operations nothing: they read the
position. -/

namespace Sys2Proof

/-- A chunk's tag. The five numbers are OPEN (R352, D37), so the five known tags are names; any other tag is unknown
(R353). Log entry 13. -/
inductive Tag where
  | reg
  | scroll
  | oam
  | banks
  | pal
  | unknown (n : Nat)
  deriving DecidableEq, Repr

/-- A chunk of the persisted state: tag, stated length, bytes (R351, R352). -/
structure Chunk where
  tag   : Tag
  len   : Nat
  bytes : List Byte
  deriving DecidableEq, Repr

/-- The instructions, in the order of the opcode table. -/
inductive Instr where
  -- port accesses (45_register_ports.md)
  | rdCtrl
  | rdMask
  | rdStatus
  | rdOamAddr
  | rdOamData
  | rdScroll
  | rdAddr
  | rdData
  | wrCtrl (d : Byte)
  | wrMask (d : Byte)
  | wrStatus (d : Byte)
  | wrOamAddr (d : Byte)
  | wrOamData (d : Byte)
  | wrScroll (d : Byte)
  | wrAddr (d : Byte)
  | wrData (d : Byte)
  | wrDma (d : Byte)
  -- collaborator calls (40_substrate_ops.md, 46_host_interface.md)
  /-- `flags = none` is the short form, which keeps the source's flags (R150). -/
  | set (x : Sub) (src : Nat) (flags : Option (Bool × Bool)) (size : Nat) (contents : Option (List Byte))
  | swapBank (x : Sub) (run start src : Nat) (banks : List Nat)
  | peek (x : Sub) (a : Nat)
  | poke (x : Sub) (a : Nat) (d : Byte)
  | installHook (x : Sub) (p h : Nat)
  | removeHook (x : Sub) (p : Nat)
  /-- The mode by its code (log entry 17), so that a mode outside the five can be asked for (R158). -/
  | setMirroring (code : Nat)
  /-- The geometries are operands, so that R90's check has something to refuse (log entry 11). -/
  | construct (cfg : Setup) (chr nmt : Geometry)
  | reset (hard : Bool) (time : Nat)
  | update (time : Nat)
  | beginFrame (target : Store 9)
  | endFrame
  | ackNmi
  | snapshot
  | restore (chunks : List Chunk)
  -- dot micro-operations (41_state_machine.md to 44_pixel_output.md)
  | dotVblSet
  | dotVblClr
  | dotWarmCount
  | dotPixel
  | dotPixelOff
  | dotShift
  | dotNt
  | dotAt
  | dotPtLo
  | dotPtHi
  | dotIncX
  | dotIncY
  | dotEval
  | dotHCopy
  | dotVCopy
  | dotOamZero
  | dotSprNt2
  | dotSprNt4
  | dotSprLo
  | dotSprHi
  | dotSprExtra
  | dotDummyNt338
  | dotDummyNt340
  | dotSkip
  | dotIdle
  deriving DecidableEq, Repr

/-- The three kinds of operation (R2), the table's "format". -/
inductive Format where
  | port
  | call
  | dot
  deriving DecidableEq, Repr

/-- The kind of an instruction (R2). -/
def Instr.format : Instr → Format
  | .rdCtrl | .rdMask | .rdStatus | .rdOamAddr | .rdOamData | .rdScroll | .rdAddr | .rdData => .port
  | .wrCtrl _ | .wrMask _ | .wrStatus _ | .wrOamAddr _ | .wrOamData _ | .wrScroll _ | .wrAddr _ | .wrData _
  | .wrDma _ => .port
  | .set _ _ _ _ _ | .swapBank _ _ _ _ _ | .peek _ _ | .poke _ _ _ | .installHook _ _ _ | .removeHook _ _
  | .setMirroring _ | .construct _ _ _ | .reset _ _ | .update _ | .beginFrame _ | .endFrame | .ackNmi | .snapshot
  | .restore _ => .call
  | .dotVblSet | .dotVblClr | .dotWarmCount | .dotPixel | .dotPixelOff | .dotShift | .dotNt | .dotAt | .dotPtLo
  | .dotPtHi | .dotIncX | .dotIncY | .dotEval | .dotHCopy | .dotVCopy | .dotOamZero | .dotSprNt2 | .dotSprNt4
  | .dotSprLo | .dotSprHi | .dotSprExtra | .dotDummyNt338 | .dotDummyNt340 | .dotSkip | .dotIdle => .dot

end Sys2Proof
end

