-- ==== Sys2Proof/WellFormed.lean ====
section
/-! DEFINITION. Which instructions are well formed: an operand that is an array or a byte sequence has the length its
rule gives (R150 `contents`, R345 `target`), and a geometry names one or two sources (R90). Operands that the spec
refuses by a reason code are well formed: the refusal is their meaning. -/

namespace Sys2Proof

/-- The number of entries of an output buffer: 240 rows of 256 columns (R56). -/
def frameCells : Nat := 240 * 256

/-- `contents`, when given, is a byte sequence of length `size` (R150). -/
def contentsFit (size : Nat) (contents : Option (List Byte)) : Bool :=
  match contents with
  | none => true
  | some bytes => decide (bytes.length = size)

/-- An output buffer in canonical form, with no entry past its end, that reads 0 where nothing is listed (R345). -/
def targetFits (target : Store 9) : Bool :=
  decide (target.fill = .const 0) && target.wf && target.below frameCells

/-- A substrate has one source or two (R90). -/
def sourcesFit (g : Geometry) : Bool :=
  decide (g.nsrc = 1) || decide (g.nsrc = 2)

/-- The well-formed instructions. -/
def WellFormed : Instr → Bool
  | .set _ _ _ size contents => contentsFit size contents
  | .construct _ chr nmt => sourcesFit chr && sourcesFit nmt
  | .beginFrame target => targetFits target
  | .rdCtrl | .rdMask | .rdStatus | .rdOamAddr | .rdOamData | .rdScroll | .rdAddr | .rdData => true
  | .wrCtrl _ | .wrMask _ | .wrStatus _ | .wrOamAddr _ | .wrOamData _ | .wrScroll _ | .wrAddr _ | .wrData _
  | .wrDma _ => true
  | .swapBank _ _ _ _ _ | .peek _ _ | .poke _ _ _ | .installHook _ _ _ | .removeHook _ _ | .setMirroring _
  | .reset _ _ | .update _ | .endFrame | .ackNmi | .snapshot | .restore _ => true
  | .dotVblSet | .dotVblClr | .dotWarmCount | .dotPixel | .dotPixelOff | .dotShift | .dotNt | .dotAt | .dotPtLo
  | .dotPtHi | .dotIncX | .dotIncY | .dotEval | .dotHCopy | .dotVCopy | .dotOamZero | .dotSprNt2 | .dotSprNt4
  | .dotSprLo | .dotSprHi | .dotSprExtra | .dotDummyNt338 | .dotDummyNt340 | .dotSkip | .dotIdle => true

end Sys2Proof
end

