-- ==== Sys2Proof/Decode.lean ====
section
/-! DEFINITION. Decoding and encoding (30_encoding.md): the access word of a port access (R120), the layout of an
access as bytes, the opcode map of the dot engine (R132, R139), and the table words of opcode_table.json. Collaborator
calls have no bit encoding (R139). -/

namespace Sys2Proof

/-- Why the decoder gives no instruction: both are safe, since nothing reaches the block. -/
inductive Reject where
  /-- The byte sequence ends inside an access. -/
  | truncated
  /-- The access word selects no port: a CPU access outside the block (R120). -/
  | outsideBlock
  deriving DecidableEq, Repr

/-! ### Port accesses -/

/-- A row of the opcode table with format "port". -/
structure PortRow where
  mask  : AccessWord
  value : AccessWord
  instr : Byte → Instr

/-- The rows for reads of ports 0 to 7 (R120: mask 0x1E007, `rw` = 1). -/
def readRows : List PortRow :=
  [ ⟨0x1E007, 0x12000, fun _ => .rdCtrl⟩,
    ⟨0x1E007, 0x12001, fun _ => .rdMask⟩,
    ⟨0x1E007, 0x12002, fun _ => .rdStatus⟩,
    ⟨0x1E007, 0x12003, fun _ => .rdOamAddr⟩,
    ⟨0x1E007, 0x12004, fun _ => .rdOamData⟩,
    ⟨0x1E007, 0x12005, fun _ => .rdScroll⟩,
    ⟨0x1E007, 0x12006, fun _ => .rdAddr⟩,
    ⟨0x1E007, 0x12007, fun _ => .rdData⟩ ]

/-- The rows for writes of ports 0 to 7 (R120: `rw` = 0) and of the DMA port (mask 0x1FFFF, match 0x04014). -/
def writeRows : List PortRow :=
  [ ⟨0x1E007, 0x02000, .wrCtrl⟩,
    ⟨0x1E007, 0x02001, .wrMask⟩,
    ⟨0x1E007, 0x02002, .wrStatus⟩,
    ⟨0x1E007, 0x02003, .wrOamAddr⟩,
    ⟨0x1E007, 0x02004, .wrOamData⟩,
    ⟨0x1E007, 0x02005, .wrScroll⟩,
    ⟨0x1E007, 0x02006, .wrAddr⟩,
    ⟨0x1E007, 0x02007, .wrData⟩,
    ⟨0x1FFFF, 0x04014, .wrDma⟩ ]

/-- Every port row. -/
def portRows : List PortRow := readRows ++ writeRows

/-- Whether an access word selects a row: `(word & mask) = match` (R120). -/
def PortRow.selects (r : PortRow) (word : AccessWord) : Bool :=
  decide (word &&& r.mask = r.value)

/-- The instruction of an access word and its data byte (R120). -/
def decodeAccess (word : AccessWord) (d : Byte) : Except Reject Instr :=
  match portRows.find? fun r => r.selects word with
  | some r => .ok (r.instr d)
  | none => .error .outsideBlock

/-- The access word and, for a write, the data byte of a port access, at the port's first address (R120, R137). -/
def accessOf : Instr → Option (AccessWord × Option Byte)
  | .rdCtrl => some (0x12000, none)
  | .rdMask => some (0x12001, none)
  | .rdStatus => some (0x12002, none)
  | .rdOamAddr => some (0x12003, none)
  | .rdOamData => some (0x12004, none)
  | .rdScroll => some (0x12005, none)
  | .rdAddr => some (0x12006, none)
  | .rdData => some (0x12007, none)
  | .wrCtrl d => some (0x02000, some d)
  | .wrMask d => some (0x02001, some d)
  | .wrStatus d => some (0x02002, some d)
  | .wrOamAddr d => some (0x02003, some d)
  | .wrOamData d => some (0x02004, some d)
  | .wrScroll d => some (0x02005, some d)
  | .wrAddr d => some (0x02006, some d)
  | .wrData d => some (0x02007, some d)
  | .wrDma d => some (0x04014, some d)
  | .set _ _ _ _ _ | .swapBank _ _ _ _ _ | .peek _ _ | .poke _ _ _ | .installHook _ _ _ | .removeHook _ _
  | .setMirroring _ | .construct _ _ _ | .reset _ _ | .update _ | .beginFrame _ | .endFrame | .ackNmi | .snapshot
  | .restore _ => none
  | .dotVblSet | .dotVblClr | .dotWarmCount | .dotPixel | .dotPixelOff | .dotShift | .dotNt | .dotAt | .dotPtLo
  | .dotPtHi | .dotIncX | .dotIncY | .dotEval | .dotHCopy | .dotVCopy | .dotOamZero | .dotSprNt2 | .dotSprNt4
  | .dotSprLo | .dotSprHi | .dotSprExtra | .dotDummyNt338 | .dotDummyNt340 | .dotSkip | .dotIdle => none

/-! ### An access as bytes

The table numbers the access word's bits from bit 0 of the first byte on; the data byte of a write follows in bits
31:24. Log entry 2. -/

/-- The access word held in three bytes, low byte first, the third holding only bit 16. -/
def wordOfBytes (lo hi top : Byte) : AccessWord :=
  (top.setWidth 1 ++ hi ++ lo).setWidth 17

/-- Decode the access at the head of a byte sequence: three bytes of access word and, for a write, one of data. -/
def decode (bytes : List Byte) : Except Reject (Instr × List Byte) :=
  match bytes with
  | lo :: hi :: top :: rest =>
    if top = 1 then
      match decodeAccess (wordOfBytes lo hi top) 0 with
      | .ok i => .ok (i, rest)
      | .error e => .error e
    else if top = 0 then
      match rest with
      | [] => .error .truncated
      | d :: rest' =>
        match decodeAccess (wordOfBytes lo hi top) d with
        | .ok i => .ok (i, rest')
        | .error e => .error e
    else .error .outsideBlock
  | _ => .error .truncated

/-- The three bytes of an access word. -/
def bytesOfWord (word : AccessWord) : List Byte :=
  [word.setWidth 8, (word >>> 8).setWidth 8, (word >>> 16).setWidth 8]

/-- The bytes of a port access; nothing for a call or a dot micro-operation (R139). -/
def encode (i : Instr) : Option (List Byte) :=
  match accessOf i with
  | some (word, some d) => some (bytesOfWord word ++ [d])
  | some (word, none) => some (bytesOfWord word)
  | none => none

/-! ### The dot schedule -/

/-- The line classes of the dot schedule (R132). -/
inductive LineClass where
  | vblFirst
  | pre
  | visible
  | rendering
  deriving DecidableEq, Repr

/-- Whether a row runs with rendering on, off, or either (R132). -/
inductive RenderCond where
  | on
  | off
  | either
  deriving DecidableEq, Repr

/-- A row of the opcode table with format "dot": mask and match on the 9-bit dot value, and the line class, the dot
ranges and the conditions that must also hold (R139). -/
structure DotRow where
  instr  : Instr
  mask   : BitVec 9
  value  : BitVec 9
  cls    : LineClass
  ranges : List (Nat × Nat)
  render : RenderCond
  limits : List SpriteLimit

/-- The dots of the background fetch groups (R210). -/
def bgDots : List (Nat × Nat) := [(1, 256), (321, 336)]

/-- The dots of the sprite slots (R249). -/
def sprDots : List (Nat × Nat) := [(257, 320)]

/-- Both settings of the sprite limit. -/
def anyLimit : List SpriteLimit := [.eight, .unlimited]

/-- The event and pixel rows of the opcode table. -/
def eventRows : List DotRow :=
  [ ⟨.dotVblSet, 0x1FF, 0x001, .vblFirst, [(1, 1)], .either, anyLimit⟩,
    ⟨.dotVblClr, 0x1FF, 0x001, .pre, [(1, 1)], .either, anyLimit⟩,
    ⟨.dotWarmCount, 0x1FF, 0x001, .pre, [(1, 1)], .either, anyLimit⟩,
    ⟨.dotPixel, 0x000, 0x000, .visible, [(1, 256)], .on, anyLimit⟩,
    ⟨.dotPixelOff, 0x000, 0x000, .visible, [(1, 256)], .off, anyLimit⟩ ]

/-- The background rows of the opcode table. -/
def backgroundRows : List DotRow :=
  [ ⟨.dotShift, 0x000, 0x000, .rendering, bgDots, .on, anyLimit⟩,
    ⟨.dotNt, 0x007, 0x002, .rendering, bgDots, .on, anyLimit⟩,
    ⟨.dotAt, 0x007, 0x004, .rendering, bgDots, .on, anyLimit⟩,
    ⟨.dotPtLo, 0x007, 0x006, .rendering, bgDots, .on, anyLimit⟩,
    ⟨.dotPtHi, 0x007, 0x000, .rendering, bgDots, .on, anyLimit⟩,
    ⟨.dotIncX, 0x007, 0x000, .rendering, bgDots, .on, anyLimit⟩,
    ⟨.dotIncY, 0x1FF, 0x100, .rendering, [(256, 256)], .on, anyLimit⟩ ]

/-- The evaluation, copy and sprite rows of the opcode table. -/
def spriteRows : List DotRow :=
  [ ⟨.dotEval, 0x1FF, 0x100, .visible, [(evalDot, evalDot)], .on, anyLimit⟩,
    ⟨.dotHCopy, 0x1FF, 0x101, .rendering, [(257, 257)], .on, anyLimit⟩,
    ⟨.dotVCopy, 0x000, 0x000, .pre, [(280, 304)], .on, anyLimit⟩,
    ⟨.dotOamZero, 0x000, 0x000, .rendering, sprDots, .on, anyLimit⟩,
    ⟨.dotSprNt2, 0x007, 0x002, .rendering, sprDots, .on, anyLimit⟩,
    ⟨.dotSprNt4, 0x007, 0x004, .rendering, sprDots, .on, anyLimit⟩,
    ⟨.dotSprLo, 0x007, 0x006, .rendering, sprDots, .on, anyLimit⟩,
    ⟨.dotSprHi, 0x007, 0x000, .rendering, sprDots, .on, anyLimit⟩,
    ⟨.dotSprExtra, 0x1FF, 0x140, .rendering, [(320, 320)], .on, [.unlimited]⟩ ]

/-- The rows of the end of the line. -/
def lineEndRows : List DotRow :=
  [ ⟨.dotDummyNt338, 0x1FF, 0x152, .rendering, [(338, 338)], .on, anyLimit⟩,
    ⟨.dotDummyNt340, 0x1FF, 0x154, .rendering, [(340, 340)], .on, anyLimit⟩,
    ⟨.dotSkip, 0x1FF, 0x153, .pre, [(339, 339)], .either, anyLimit⟩ ]

/-- Every dot row but DOT_IDLE, in the table's order, which is the order of R176. -/
def dotRows : List DotRow := eventRows ++ backgroundRows ++ spriteRows ++ lineEndRows

/-- Whether a line is of a class (R132). -/
def LineClass.holds (c : LineClass) (std : Std) (line : Nat) : Bool :=
  match c with
  | .vblFirst => decide (line = std.vblFirst)
  | .pre => decide (line = std.pre)
  | .visible => std.visibleLine line
  | .rendering => std.renderLine line

/-- Whether a rendering condition is met. -/
def RenderCond.holds (c : RenderCond) (renderOn : Bool) : Bool :=
  match c with
  | .on => renderOn
  | .off => !renderOn
  | .either => true

/-- Whether the mask and match of a row pick a dot value (R139). -/
def DotRow.matchesDot (r : DotRow) (dot : BitVec 9) : Bool :=
  decide (dot &&& r.mask = r.value)

/-- Whether a row's micro-operation is performed at a position (R132, R139). -/
def DotRow.selects (r : DotRow) (cfg : Setup) (line dot : BitVec 9) (renderOn : Bool) : Bool :=
  r.matchesDot dot && r.cls.holds cfg.std line.toNat &&
    r.ranges.any (fun p => decide (p.1 ≤ dot.toNat) && decide (dot.toNat ≤ p.2)) &&
    r.render.holds renderOn && r.limits.contains cfg.limit

/-- The micro-operations the table selects at a position, in order; DOT_IDLE where no row does (R132, R176). -/
def schedule (cfg : Setup) (line dot : BitVec 9) (renderOn : Bool) : List Instr :=
  match (dotRows.filter fun r => r.selects cfg line dot renderOn).map DotRow.instr with
  | [] => [.dotIdle]
  | i :: rest => i :: rest

/-! ### Table words -/

/-- The dot row a bare dot value picks. A dot value alone does not select one row (R139: line class and range must hold
too), so the first row whose mask covers all nine bits is taken, else the first that tests `dot mod 8`. Log entry 2. -/
def decodeDotWord (w : BitVec 9) : Option Instr :=
  match dotRows.find? fun r => r.mask == 0x1FF && r.matchesDot w with
  | some r => some r.instr
  | none =>
    match dotRows.find? fun r => r.mask == 0x007 && r.matchesDot w with
    | some r => some r.instr
    | none => none

/-- The bytes of a table word: `w`'s low `nbits` bits, zeros above, low byte first. -/
def tableBytes (nbits w : Nat) : List Byte :=
  let v := w % 2 ^ nbits
  [BitVec.ofNat 8 v, BitVec.ofNat 8 (v / 2 ^ 8), BitVec.ofNat 8 (v / 2 ^ 16), BitVec.ofNat 8 (v / 2 ^ 24)]

/-- The instruction of a word of opcode_table.json: a port access where the table gives more than the dot value's bits,
a dot row's value otherwise. -/
def decodeTableWord (nbits w : Nat) : Option Instr :=
  if 16 < nbits then
    match decode (tableBytes nbits w) with
    | .ok (i, _) => some i
    | .error _ => none
  else
    decodeDotWord (BitVec.ofNat 9 (w % 2 ^ nbits))

end Sys2Proof
end

