-- ==== Sys2Proof/Machine/State.lean ====
section
/-! DEFINITION. The state of the block (10_state.md R30-R61), what a step may answer beside a next state, and the state
after power-on. Plain data throughout. -/

namespace Sys2Proof.Machine

/-- A source of a substrate (R91). `mask` is derived from `size`. -/
structure Source where
  bytes       : Store 8
  size        : Nat
  readable    : Bool
  writable    : Bool
  rederivable : Bool
  deriving DecidableEq, Repr

/-- An entry of a page table (R92). -/
structure PageEntry where
  src : Nat
  off : Nat
  deriving DecidableEq, Repr

/-- A paged memory substrate: its geometry, sources, page table, and the accessor installed on each page
(R54, R90-R92). -/
structure Substrate where
  space : Nat
  page  : Nat
  srcs  : List Source
  pt    : List PageEntry
  hooks : List (Option Nat)
  deriving DecidableEq, Repr

/-- The mirroring mode (R53). -/
inductive Mirror where
  | horizontal
  | vertical
  | single0
  | single1
  | controlled
  deriving DecidableEq, Repr

/-- An entry of the secondary evaluation buffer (R49). -/
structure SprEntry where
  y    : Byte
  tile : Byte
  attr : Byte
  x    : Byte
  idx  : BitVec 6
  deriving DecidableEq, Repr

/-- A full output slot (R50); `px` is the eight pixel values, left to right. -/
structure OutSlot where
  x      : Byte
  behind : Bool
  zero   : Bool
  palg   : BitVec 2
  px     : List (BitVec 2)
  deriving DecidableEq, Repr

/-- A bus event the mapper observes (R55, R376). -/
structure BusEvent where
  clock : Nat
  addr  : BusAddr
  rise  : Bool
  deriving DecidableEq, Repr

/-- The reason codes of a refused call and of a failed restore (R371). -/
inductive Reason where
  | badGeometry
  | badSource
  | badSwap
  | badPage
  | badMirroring
  | corruptState
  deriving DecidableEq, Repr

/-- What an operation hands back to its caller. The model's own field, log entry 8. -/
inductive Reply where
  /-- The operation returns nothing. -/
  | nothing
  /-- A port read's or a `Peek`'s byte. -/
  | byte (b : Byte)
  /-- DMA's stall in CPU cycles (R331). -/
  | stall (cycles : Nat)
  /-- `EndFrame`'s buffer and burst phase (R346). -/
  | frame (out : Store 9) (burst : BitVec 2)
  /-- `Snapshot`'s chunks (R352). -/
  | chunks (l : List Chunk)
  /-- The reason of a refused call or a failed restore (R370, R371). -/
  | reason (r : Reason)
  deriving DecidableEq, Repr

/-- One operation the driver has pending: a CPU access as its access word and data byte (R120), or a collaborator call
(R139). The model's own type, log entry 1. -/
inductive Request where
  | access (word : AccessWord) (d : Byte)
  | call (i : Instr)
  deriving DecidableEq, Repr

/-- The block has no fault: no trap and no stuck state (R370, R385; 93_implementation_defined.md section 1). So no step
raises one, and the type is empty. -/
inductive Fault where
  deriving DecidableEq, Repr

/-- Why a step gives an operation no meaning. -/
inductive Refusal where
  /-- An instruction with no meaning in this model. Raised by `exec` alone; safe. -/
  | notModelled (mnemonic : String)
  /-- The driver's pending request is no collaborator call, or its operands are ill formed (`WellFormed`). Raised by
  `step` alone; safe: the interface has no such request (log entry 21). -/
  | illFormedRequest
  deriving DecidableEq, Repr

end Sys2Proof.Machine

namespace Sys2Proof.Machine

/-- The state (R30). The last five fields are the model's own. -/
structure State where
  /-- The dot engine's position: the next dot to execute (R32). -/
  line : BitVec 9
  dot : BitVec 9
  /-- The master-clock time at which the next dot executes (R34). -/
  clock : Nat
  /-- Completed frames since reset, and the parity flag (R35). -/
  frame : Nat
  odd : Bool
  /-- Warm-up frames left (R36). -/
  warmUp : Nat
  /-- The next vblank-set dot is suppressed; the burst phase (R37). -/
  vblSuppress : Bool
  burstPhase : BitVec 2
  /-- The open-bus byte of the ports (R38). -/
  latch : Byte
  /-- PPUCTRL and PPUMASK (R39). -/
  ctrl : Byte
  mask : Byte
  /-- The status flags (R40). -/
  vbl : Bool
  s0hit : Bool
  ovf : Bool
  /-- The OAM address pointer (R41). -/
  oamAddr : Byte
  /-- The scroll state (R42, R43). -/
  v : VAddr
  t : VAddr
  x : BitVec 3
  w : Bool
  /-- The data port's buffer (R44). -/
  readBuf : Byte
  /-- The NMI request (R45). -/
  nmiReq : Bool
  /-- The fetch latches (R46). -/
  ntLatch : Byte
  atLatch : BitVec 2
  ptLo : Byte
  ptHi : Byte
  /-- The shift buffers (R47). -/
  shLo : Shifter
  shHi : Shifter
  atShLo : Shifter
  atShHi : Shifter
  /-- Primary OAM (R48). -/
  oam : Store 8
  /-- The secondary evaluation buffer, in increasing `idx` order (R49). -/
  sec : List SprEntry
  /-- The output slots (R50). -/
  obuf : List (Option OutSlot)
  /-- The sprite pattern low-plane latch (R61). -/
  sprLo : Byte
  /-- The palette (R51). -/
  pal : Store 6
  /-- The two substrates with their hooks (R52, R54). -/
  chr : Substrate
  nmt : Substrate
  /-- The mirroring mode (R53). -/
  mirror : Mirror
  /-- The last address driven on the bus, and the events the mapper observes, oldest first (R55). -/
  lastBus : BusAddr
  trace : List BusEvent
  /-- The output buffer, entry `256 * row + column`, and whether it is bound (R56). -/
  out : Store 9
  outBound : Bool
  /-- Some call was refused (R57). -/
  refused : Bool
  /-- The parameters of the instance (R9, R11, R12; log entry 3). -/
  cfg : Setup
  /-- The number of the next draw (log entry 4). -/
  draws : Nat
  /-- The driver's pending operations, oldest first (log entry 1). -/
  inbox : List Request
  /-- What the last operation returned (log entry 8). -/
  reply : Reply
  /-- The bytes the CPU collaborator's memory is known to answer DMA with (R80, R330; log entry 15). -/
  cpu : List (Nat × Byte)
  deriving DecidableEq, Repr

/-- A 1-byte source that is neither readable nor writable (R344). -/
def placeholderSource : Source :=
  { bytes := Store.blank 0, size := 1, readable := false, writable := false, rederivable := true }

/-- The state right after power-on: `Construct(NTSC, 8, true)`, which ends with `Reset(true, 0)` (R344, R407, R60).
A value the spec leaves to a draw is 0 here (log entries 5 and 6; DESIGN CHOICE, unsafe); the instructions `construct`
and `reset` draw it. `refused`, which R60 keeps and no rule gives a first value, is clear (log entry 34; DESIGN CHOICE,
unsafe). -/
def State.reset : State where
  line := 0
  dot := 0
  clock := 0
  frame := 0
  odd := false
  warmUp := warmUpFrames
  vblSuppress := false
  burstPhase := 0
  latch := 0x00
  ctrl := 0x00
  mask := 0x00
  vbl := false
  s0hit := false
  ovf := false
  oamAddr := 0x00
  v := 0
  t := 0
  x := 0
  w := false
  readBuf := 0x00
  nmiReq := false
  ntLatch := 0
  atLatch := 0
  ptLo := 0
  ptHi := 0
  shLo := 0
  shHi := 0
  atShLo := 0
  atShHi := 0
  oam := Store.blank 0
  sec := []
  obuf := List.replicate 8 none
  sprLo := 0
  pal := Store.blank 0
  chr :=
    { space := 8192, page := 1024
      srcs := [placeholderSource, placeholderSource]
      pt := List.replicate 8 { src := 0, off := 0 }
      hooks := List.replicate 8 none }
  nmt :=
    { space := 4096, page := 1024
      srcs :=
        [ { bytes := Store.blank 0, size := ciramSize, readable := true, writable := true, rederivable := false },
          placeholderSource ]
      pt := [⟨0, 0⟩, ⟨0, 0⟩, ⟨0, 1024⟩, ⟨0, 1024⟩]
      hooks := List.replicate 4 none }
  mirror := .horizontal
  lastBus := 0
  trace := []
  out := Store.blank 0
  outBound := false
  refused := false
  cfg := { std := .ntsc, limit := .eight, overflowBug := true }
  draws := 0
  inbox := []
  reply := .nothing
  cpu := []

end Sys2Proof.Machine
end

