-- ==== Sys2Proof/Machine/Operands.lean ====
section
/-! DEFINITION. Operand forms: the field layouts of data bytes, of `v` and `t`, and of the addresses the block forms
(30_encoding.md R121-R131, R135; 20_memory.md R88; 42_tile_fetch.md R213, R216-R219). -/

namespace Sys2Proof.Machine

/-! ### Fields of `v` and `t` (R127) -/

/-- Fine Y, bits 14:12. -/
def fineY (v : VAddr) : BitVec 3 := v.extractLsb' 12 3

/-- The nametable address a fetch reads for `v`: `0x2000 | (v & 0x0FFF)` (R211). -/
def ntAddr (v : VAddr) : BusAddr := 0x2000 ||| (v &&& 0x0FFF).setWidth 14

/-- The attribute address for `v` (R131 `atAddr`). -/
def atAddr (v : VAddr) : BusAddr :=
  0x23C0 ||| (v &&& 0x0C00).setWidth 14 ||| ((v >>> 4) &&& 0x38).setWidth 14 ||| ((v >>> 2) &&& 0x07).setWidth 14

/-- How far the attribute byte is shifted for `v`: 0, 2, 4 or 6 (R131 `atShift`). -/
def atShift (v : VAddr) : Nat := (((v >>> 4) &&& 0x04) ||| (v &&& 0x02)).toNat

/-- The palette group an attribute byte gives `v`'s tile (R131 `group`). -/
def atGroup (v : VAddr) (b : Byte) : BitVec 2 := (b >>> atShift v).setWidth 2

/-- The bus address `v` drives: its low 14 bits (R81). -/
def vBus (v : VAddr) : BusAddr := v.setWidth 14

/-! ### Updates of `v` and `t` -/

/-- Coarse X increment (R216). -/
def incX (v : VAddr) : VAddr :=
  if v &&& 0x001F = 31 then (v &&& ~~~(0x001F : VAddr)) ^^^ 0x0400 else v + 1

/-- Coarse Y after a fine Y wrap, and whether the vertical nametable switches (R217). -/
def nextCoarseY (cy : BitVec 5) : BitVec 5 × Bool :=
  if cy = 29 then (0, true) else if cy = 31 then (0, false) else (cy + 1, false)

/-- Fine Y increment (R217). -/
def incY (v : VAddr) : VAddr :=
  if v &&& 0x7000 ≠ 0x7000 then v + 0x1000
  else
    let v1 := v &&& ~~~(0x7000 : VAddr)
    let (cy, switch) := nextCoarseY (v1.extractLsb' 5 5)
    let v2 := if switch then v1 ^^^ 0x0800 else v1
    (v2 &&& ~~~(0x03E0 : VAddr)) ||| (cy.setWidth 15 <<< 5)

/-- Horizontal copy: coarse X and the horizontal nametable from `t` (R218). -/
def hCopy (v t : VAddr) : VAddr := (v &&& ~~~(0x041F : VAddr)) ||| (t &&& 0x041F)

/-- Vertical copy: fine Y, coarse Y and the vertical nametable from `t` (R219). -/
def vCopy (v t : VAddr) : VAddr := (v &&& ~~~(0x7BE0 : VAddr)) ||| (t &&& 0x7BE0)

/-- The nametable select of a PPUCTRL write into `t[11:10]` (R306). -/
def ctrlIntoT (t : VAddr) (d : Byte) : VAddr := (t &&& ~~~(0x0C00 : VAddr)) ||| ((d &&& 3).setWidth 15 <<< 10)

/-- The first PPUSCROLL write's coarse X into `t` (R125, R316). -/
def scrollXIntoT (t : VAddr) (d : Byte) : VAddr := (t &&& ~~~(0x001F : VAddr)) ||| (d >>> 3).setWidth 15

/-- The first PPUSCROLL write's fine X (R125, R316). -/
def scrollFineX (d : Byte) : BitVec 3 := d.setWidth 3

/-- The second PPUSCROLL write's fine Y and coarse Y into `t` (R125, R316). -/
def scrollYIntoT (t : VAddr) (d : Byte) : VAddr :=
  (t &&& ~~~(0x73E0 : VAddr)) ||| ((d &&& 7).setWidth 15 <<< 12) ||| ((d >>> 3).setWidth 15 <<< 5)

/-- The first PPUADDR write: `t[13:8] = d[5:0]`, `t[14] = 0` (R126, R317). -/
def addrHighIntoT (t : VAddr) (d : Byte) : VAddr := (t &&& 0x00FF) ||| ((d &&& 0x3F).setWidth 15 <<< 8)

/-- The second PPUADDR write: `t[7:0] = d` (R126, R318). -/
def addrLowIntoT (t : VAddr) (d : Byte) : VAddr := (t &&& 0x7F00) ||| d.setWidth 15

/-! ### Palette and pattern addresses -/

/-- The palette entry of a 5-bit index, or of the low five bits of a bus address (R88). -/
def palIndex (i : BitVec 5) : BitVec 5 :=
  if i &&& 0x13 = 0x10 then i &&& 0x0F else i

/-- A background pattern address, plane 0 (R129, R213). -/
def bgAddr (ctrl nt : Byte) (v : VAddr) : BusAddr :=
  (BitVec.ofBool (ctrl.getLsbD 4)).setWidth 14 <<< 12 ||| nt.setWidth 14 <<< 4 ||| (fineY v).setWidth 14

/-- The sprite height in rows (R241). -/
def spriteHeight (ctrl : Byte) : Nat := if ctrl.getLsbD 5 then 16 else 8

/-- The range test, a signed difference (R243). -/
def inRange (height : Nat) (y : Byte) (line : Nat) : Bool :=
  decide (0 ≤ (line : Int) - (y.toNat : Int)) && decide ((line : Int) - (y.toNat : Int) < (height : Int))

/-- A row of a sprite, reversed by the vertical flip (R251). -/
def flipRow (flip : Bool) (last r : BitVec 9) : BitVec 9 := if flip then last - r else r

/-- The pattern address of an 8 × 8 sprite's row (R251). -/
def sprAddr8 (ctrl : Byte) (tile : Byte) (r : BitVec 9) : BusAddr :=
  (BitVec.ofBool (ctrl.getLsbD 3)).setWidth 14 <<< 12 ||| tile.setWidth 14 <<< 4 ||| r.setWidth 14

/-- The pattern address of an 8 × 16 sprite's row (R251). -/
def sprAddr16 (tile : Byte) (r : BitVec 9) : BusAddr :=
  (tile &&& 1).setWidth 14 <<< 12 |||
    ((tile &&& 0xFE).setWidth 14 + (r >>> 3).setWidth 14) <<< 4 ||| (r &&& 7).setWidth 14

/-- The entry an empty slot fetches with (R249). -/
def emptyEntry : SprEntry := { y := 0xFF, tile := 0xFF, attr := 0xFF, x := 0xFF, idx := 0x3F }

/-- `sprAddr(e, L)`: the plane-0 address of a slot's fetch on a line; `none` is an empty slot, which fetches row 0 of
the substitute entry without flip (R249, R251). R251 states `0 ≤ r0 < h` for a full slot; an entry whose Y exceeds the
line it is fetched on (stale, or restored) has its difference reduced modulo 2^9 and then masked (the model's choice, log
entry 30). -/
def sprAddr (ctrl : Byte) (e : Option SprEntry) (line : BitVec 9) : BusAddr :=
  let tile := (e.getD emptyEntry).tile
  let r0 : BitVec 9 :=
    match e with
    | some f => line - f.y.setWidth 9
    | none => 0
  let flip :=
    match e with
    | some f => f.attr.getLsbD 7
    | none => false
  if ctrl.getLsbD 5 then sprAddr16 tile (flipRow flip 15 (r0 &&& 15))
  else sprAddr8 ctrl tile (flipRow flip 7 (r0 &&& 7))

/-- The 2-bit value of bit `b` of two planes (R129). -/
def planeBits {w : Nat} (hi lo : BitVec w) (b : Nat) : BitVec 2 :=
  BitVec.ofBool (hi.getLsbD b) ++ BitVec.ofBool (lo.getLsbD b)

/-- The eight pixel values of a sprite row, left to right, with the horizontal flip (R252). -/
def sprPixels (flip : Bool) (hi lo : Byte) : List (BitVec 2) :=
  (List.range 8).map fun c => planeBits hi lo (if flip then c else 7 - c)

/-- The low byte of a shift buffer filled with a palette-group bit (R215). -/
def groupFill (b : Bool) : Shifter := if b then 0x00FF else 0x0000

/-- A shift buffer with its low byte reloaded (R215). -/
def reload (sh : Shifter) (low : Shifter) : Shifter := (sh &&& 0xFF00) ||| low

end Sys2Proof.Machine
end

