-- ==== Sys2Proof/Machine/Flags.lean ====
section
/-! DEFINITION. The derived conditions (00_scope.md R18, 60_exceptions.md R380), the status byte (30_encoding.md R123)
and the NMI edge rule (60_exceptions.md R372). -/

namespace Sys2Proof.Machine

/-- `renderOn`: background or sprites enabled (R18, R122). -/
def State.renderOn (s : State) : Bool := s.mask.getLsbD 3 || s.mask.getLsbD 4

/-- `renderActive` (R18). -/
def State.renderActive (s : State) : Bool := s.renderOn && s.cfg.std.renderLine s.line.toNat

/-- `visibleLine(S.line)` (R18). -/
def State.onVisibleLine (s : State) : Bool := s.cfg.std.visibleLine s.line.toNat

/-- `(S.line, S.dot) = (L, D)`: the slot before (L, D), or the dot itself (R172). -/
def State.at (s : State) (line dot : Nat) : Bool :=
  decide (s.line.toNat = line) && decide (s.dot.toNat = dot)

/-- Warm-up holds (R36, R185). -/
def State.warming (s : State) : Bool := decide (0 < s.warmUp)

/-- `nmiLine := S.vbl & S.ctrl[7]` (R45). -/
def State.nmiLine (s : State) : Bool := s.vbl && s.ctrl.getLsbD 7

/-- The NMI edge rule: a rising `nmiLine` sets the request (R372). -/
def nmiEdge (before after : State) : State :=
  { after with nmiReq := after.nmiReq || (!before.nmiLine && after.nmiLine) }

/-- The status byte `{vbl, s0hit, ovf, latch[4:0]}` (R123). -/
def statusByte (vbl s0hit ovf : Bool) (latch : Byte) : Byte :=
  BitVec.ofBool vbl ++ BitVec.ofBool s0hit ++ BitVec.ofBool ovf ++ latch.setWidth 5

/-- A palette read's byte: bits 7:6 from the latch (R302, R320). -/
def paletteByte (latch : Byte) (c : Colour) : Byte := latch.extractLsb' 6 2 ++ c

end Sys2Proof.Machine
end

