-- ==== Sys2Proof/Machine/Ops.lean ====
section
/-! DEFINITION. The shared operations: draws, the substrate (20_memory.md R85-R99, 40_substrate_ops.md R152-R156), the
palette, OAM, bus events, refusals. The block takes no exception and returns from none (R370, R374): what stands here
in their place is `refuse`, `failCorrupt` and, in Flags.lean, `nmiEdge`. -/

namespace Sys2Proof.Machine

/-! ### Draws (R17) -/

/-- A free byte. -/
def drawByte (s : State) : Byte × State :=
  ((Config.free s.draws).setWidth 8, { s with draws := s.draws + 1 })

/-- A free bit. -/
def drawBit (s : State) : Bool × State :=
  ((Config.free s.draws).getLsbD 0, { s with draws := s.draws + 1 })

/-! ### Replies, refusals and failures -/

/-- Hand `r` back to the caller. -/
def answer (r : Reply) (s : State) : State := { s with reply := r }

/-- `refuse(reason)`: the mark is set, nothing else changes, and the code is reported (R17, R370, R371). -/
def refuse (r : Reason) (s : State) : State := { s with refused := true, reply := .reason r }

/-- `fail CorruptState`: the state is untouched and the caller is told (R17, R353, R371). -/
def failCorrupt (s : State) : State := { s with reply := .reason .corruptState }

/-- The number of a reason code (R371). -/
def Reason.code : Reason → Nat
  | .badGeometry => 1
  | .badSource => 2
  | .badSwap => 3
  | .badPage => 4
  | .badMirroring => 5
  | .corruptState => 6

/-! ### The substrate -/

/-- A power of two (R90, R150, R151). -/
def isPow2 (n : Nat) : Bool := decide (n ≠ 0) && decide (n &&& (n - 1) = 0)

/-- A source's `mask` (R91). -/
def Source.mask (src : Source) : Nat := src.size - 1

/-- `NPAGES` (R90). -/
def Substrate.npages (c : Substrate) : Nat := c.space / c.page

/-- `NSRC` (R90). -/
def Substrate.nsrc (c : Substrate) : Nat := c.srcs.length

/-- The source numbered `i`. -/
def Substrate.source (c : Substrate) (i : Nat) : Source := c.srcs.getD i placeholderSource

/-- The page of an address and its entry (R92, R93). -/
def Substrate.pageOf (c : Substrate) (a : Nat) : Nat := (a &&& (c.space - 1)) / c.page

/-- Address resolution: page, source, byte index (R93). -/
def Substrate.resolve (c : Substrate) (a : Nat) : Nat × Nat × Nat :=
  let a' := a &&& (c.space - 1)
  let p := c.pageOf a
  let e := c.pt.getD p ⟨0, 0⟩
  (p, e.src, (e.off + (a' &&& (c.page - 1))) &&& (c.source e.src).mask)

/-- The accessor installed on a page (R54). -/
def Substrate.hook (c : Substrate) (p : Nat) : Option Nat := c.hooks.getD p none

/-- The byte an address resolves to, whatever its rights (R93). -/
def Substrate.byteAt (c : Substrate) (a : Nat) : Byte :=
  let (_, i, k) := c.resolve a
  (c.source i).bytes.read k

/-- The substrate with the bytes of source `i` replaced. -/
def Substrate.setBytes (c : Substrate) (i : Nat) (bytes : Store 8) : Substrate :=
  { c with srcs := c.srcs.set i { c.source i with bytes } }

/-- A write through the page table; dropped where the source is not writable (R98, R155). -/
def Substrate.pokeByte (c : Substrate) (a : Nat) (d : Byte) : Substrate :=
  let (_, i, k) := c.resolve a
  if (c.source i).writable then c.setBytes i ((c.source i).bytes.write k d) else c

/-- One of the two substrates (R52). -/
def State.sub (s : State) : Sub → Substrate
  | .chr => s.chr
  | .nmt => s.nmt

/-- The state with one of the two substrates replaced. -/
def State.setSub (s : State) (x : Sub) (c : Substrate) : State :=
  match x with
  | .chr => { s with chr := c }
  | .nmt => { s with nmt := c }

/-- `Peek_X(a)`: the hook's answer, the source's byte, or a free value (R154, R156, R98). Only the draw counter moves. -/
def peekSub (x : Sub) (a : Nat) (s : State) : Byte × State :=
  let c := s.sub x
  let (p, i, k) := c.resolve a
  match c.hook p with
  | some h => (Config.hookByte s.draws x p (a &&& (c.space - 1)) h, { s with draws := s.draws + 1 })
  | none => if (c.source i).readable then ((c.source i).bytes.read k, s) else drawByte s

/-- `Poke_X(a, d)` (R155). -/
def pokeSub (x : Sub) (a : Nat) (d : Byte) (s : State) : State :=
  s.setSub x ((s.sub x).pokeByte a d)

/-- The page entries of a swap: for each bank, its run of pages in order (R152). -/
def swapEntries (c : Substrate) (run src : Nat) (banks : List Nat) : List PageEntry :=
  banks.flatMap fun b =>
    (List.range (run / c.page)).map fun j => ⟨src, (b * run + j * c.page) &&& (c.source src).mask⟩

/-- Write consecutive entries of a page table from page `p` on. -/
def setPages (pt : List PageEntry) (p : Nat) (entries : List PageEntry) : List PageEntry :=
  match entries with
  | [] => pt
  | e :: rest => setPages (pt.set p e) (p + 1) rest

/-- The preconditions of `SwapBank` (R151). -/
def Substrate.swapOk (c : Substrate) (run start src : Nat) (banks : List Nat) : Bool :=
  isPow2 run && decide (c.page ≤ run) && decide (start % c.page = 0) &&
    decide (start + banks.length * run ≤ c.space) && decide (src < c.nsrc) && decide (1 ≤ banks.length)

/-- `SwapBank`: rebind runs of pages, in one step (R152, R104). -/
def Substrate.swap (c : Substrate) (run start src : Nat) (banks : List Nat) : Substrate :=
  { c with pt := setPages c.pt (start / c.page) (swapEntries c run src banks) }

/-- `SwapBank` on one of the two substrates, or its refusal (R151, R152). -/
def swapBank (x : Sub) (run start src : Nat) (banks : List Nat) (s : State) : Except Reason State :=
  if (s.sub x).swapOk run start src banks then .ok (s.setSub x ((s.sub x).swap run start src banks))
  else .error .badSwap

/-- The mode of a code (R53; log entry 17). -/
def Mirror.ofCode : Nat → Option Mirror
  | 0 => some .horizontal
  | 1 => some .vertical
  | 2 => some .single0
  | 3 => some .single1
  | 4 => some .controlled
  | _ => none

/-- The code of a mode. -/
def Mirror.code : Mirror → Nat
  | .horizontal => 0
  | .vertical => 1
  | .single0 => 2
  | .single1 => 3
  | .controlled => 4

/-- The CIRAM banks of the four quadrants in a fixed mode (R158). -/
def Mirror.banks : Mirror → Option (List Nat)
  | .horizontal => some [0, 0, 1, 1]
  | .vertical => some [0, 1, 0, 1]
  | .single0 => some [0, 0, 0, 0]
  | .single1 => some [1, 1, 1, 1]
  | .controlled => none

/-- `SetMirroring(m)` for one of the five modes (R158, R159). -/
def setMirror (m : Mirror) (s : State) : Except Reason State :=
  match m.banks with
  | none => .ok { s with mirror := m }
  | some banks =>
    match swapBank .nmt 1024 0x000 0 banks s with
    | .ok t => .ok { t with mirror := m }
    | .error r => .error r

/-! ### The palette and OAM -/

/-- The palette entry of a 5-bit index (R88, R89). -/
def State.palRead (s : State) (i : BitVec 5) : Colour := s.pal.read (palIndex i).toNat

/-- Store a palette entry (R86, R89). -/
def State.palWrite (s : State) (i : BitVec 5) (c : Colour) : State :=
  { s with pal := s.pal.write (palIndex i).toNat c }

/-- The bits of an OAM byte that exist: attribute bytes have no bits 4:2 (R128). -/
def oamMask (a : Nat) (b : Byte) : Byte := if a % 4 = 2 then b &&& 0xE3 else b

/-- An OAM byte (R48, R128). -/
def State.oamByte (s : State) (a : Nat) : Byte := oamMask a (s.oam.read a)

/-! ### The PPU bus -/

/-- `emit Bus(a)` (R376). -/
def emitBus (a : BusAddr) (s : State) : State :=
  { s with
    trace := s.trace ++ [{ clock := s.clock, addr := a, rise := !s.lastBus.getLsbD 12 && a.getLsbD 12 }]
    lastBus := a }

/-- `PpuRead(a)` (R82, R85). -/
def ppuRead (a : BusAddr) (s : State) : Byte × State :=
  if a < 0x2000 then peekSub .chr (a &&& 0x1FFF).toNat s
  else if a < 0x3F00 then peekSub .nmt (a &&& 0x0FFF).toNat s
  else ((s.palRead (a.setWidth 5)).setWidth 8, s)

/-- `PpuWrite(a, d)` (R82, R86). -/
def ppuWrite (a : BusAddr) (d : Byte) (s : State) : State :=
  if a < 0x2000 then pokeSub .chr (a &&& 0x1FFF).toNat d s
  else if a < 0x3F00 then pokeSub .nmt (a &&& 0x0FFF).toNat d s
  else s.palWrite (a.setWidth 5) (d.setWidth 6)

/-- A rendering fetch: the address goes on the bus and its byte is read (R376, R377). -/
def busFetch (a : BusAddr) (s : State) : Byte × State := ppuRead a (emitBus a s)

/-! ### CPU memory -/

/-- `CpuRead(A)`: the byte the collaborator's memory is known to hold, or a free value (R16, R330; log entry 15). -/
def cpuRead (a : CpuAddr) (s : State) : Byte × State :=
  match Cells.get s.cpu a.toNat with
  | some b => (b, s)
  | none => (Config.cpuByte s.draws a, { s with draws := s.draws + 1 })

end Sys2Proof.Machine
end

