-- ==== Sys2Proof/Machine/TileFetch.lean ====
section
/-! DEFINITION. The background micro-operations (42_tile_fetch.md). -/

namespace Sys2Proof.Machine

/-- Nametable fetch (R211). -/
def microNt (s : State) : State :=
  let (b, t) := busFetch (ntAddr s.v) s
  { t with ntLatch := b }

/-- Attribute fetch (R212). -/
def microAt (s : State) : State :=
  let (b, t) := busFetch (atAddr s.v) s
  { t with atLatch := atGroup s.v b }

/-- Pattern low fetch (R213). -/
def microPtLo (s : State) : State :=
  let (b, t) := busFetch (bgAddr s.ctrl s.ntLatch s.v) s
  { t with ptLo := b }

/-- Background shift (R214). -/
def microShift (s : State) : State :=
  { s with shLo := s.shLo <<< 1, shHi := s.shHi <<< 1, atShLo := s.atShLo <<< 1, atShHi := s.atShHi <<< 1 }

/-- Pattern high fetch and reload (R215). -/
def microPtHi (s : State) : State :=
  let (b, t) := busFetch (bgAddr s.ctrl s.ntLatch s.v ||| 8) s
  { t with
    ptHi := b
    shLo := reload t.shLo (t.ptLo.setWidth 16)
    shHi := reload t.shHi (b.setWidth 16)
    atShLo := reload t.atShLo (groupFill (t.atLatch.getLsbD 0))
    atShHi := reload t.atShHi (groupFill (t.atLatch.getLsbD 1)) }

/-- Coarse X increment (R216). -/
def microIncX (s : State) : State := { s with v := incX s.v }

/-- Fine Y increment (R217). -/
def microIncY (s : State) : State := { s with v := incY s.v }

/-- Horizontal copy (R218). -/
def microHCopy (s : State) : State := { s with v := hCopy s.v s.t }

/-- Vertical copy (R219). -/
def microVCopy (s : State) : State := { s with v := vCopy s.v s.t }

/-- A nametable fetch whose byte is discarded (R220, R250). -/
def dummyFetch (s : State) : State := (busFetch (ntAddr s.v) s).2

/-- The background pixel at a column: `none` is TRANSPARENT, else the 4-bit index (R221, R282). -/
def bgPixel (c : Nat) (s : State) : Option (BitVec 4) :=
  if !s.mask.getLsbD 3 || (decide (c < 8) && !s.mask.getLsbD 1) then none
  else
    let b := 15 - s.x.toNat
    let pv := planeBits s.shHi s.shLo b
    if pv = 0 then none else some (planeBits s.atShHi s.atShLo b ++ pv)

/-- DOT_NT. -/
def execDotNt (s : State) : Host.Outcome State Fault Refusal := .next (microNt s)

/-- DOT_AT. -/
def execDotAt (s : State) : Host.Outcome State Fault Refusal := .next (microAt s)

/-- DOT_PTLO. -/
def execDotPtLo (s : State) : Host.Outcome State Fault Refusal := .next (microPtLo s)

/-- DOT_SHIFT. -/
def execDotShift (s : State) : Host.Outcome State Fault Refusal := .next (microShift s)

/-- DOT_PTHI. -/
def execDotPtHi (s : State) : Host.Outcome State Fault Refusal := .next (microPtHi s)

/-- DOT_INCX. -/
def execDotIncX (s : State) : Host.Outcome State Fault Refusal := .next (microIncX s)

/-- DOT_INCY. -/
def execDotIncY (s : State) : Host.Outcome State Fault Refusal := .next (microIncY s)

/-- DOT_HCOPY. -/
def execDotHCopy (s : State) : Host.Outcome State Fault Refusal := .next (microHCopy s)

/-- DOT_VCOPY. -/
def execDotVCopy (s : State) : Host.Outcome State Fault Refusal := .next (microVCopy s)

/-- The dummy nametable fetch at dot 338 (R220). -/
def microDummyNt338 (s : State) : State := dummyFetch s

/-- The dummy nametable fetch at dot 340 (R220). -/
def microDummyNt340 (s : State) : State := dummyFetch s

/-- DOT_DUMMYNT338. -/
def execDotDummyNt338 (s : State) : Host.Outcome State Fault Refusal := .next (microDummyNt338 s)

/-- DOT_DUMMYNT340. -/
def execDotDummyNt340 (s : State) : Host.Outcome State Fault Refusal := .next (microDummyNt340 s)

end Sys2Proof.Machine
end

