-- ==== Sys2Proof/Machine/Pixels.lean ====
section
/-! DEFINITION. The pixel multiplexer and the palette lookup (44_pixel_output.md). -/

namespace Sys2Proof.Machine

/-- An opaque sprite candidate (R283). -/
structure SprPixel where
  pv     : BitVec 2
  palg   : BitVec 2
  behind : Bool
  zero   : Bool
  deriving DecidableEq, Repr

/-- What one output slot shows at a column (R283). -/
def slotPixel (c : Nat) (o : Option OutSlot) : Option SprPixel :=
  match o with
  | none => none
  | some o =>
    if o.x.toNat ≤ c ∧ c < o.x.toNat + 8 then
      let pv := o.px.getD (c - o.x.toNat) 0
      if pv = 0 then none else some { pv, palg := o.palg, behind := o.behind, zero := o.zero }
    else none

/-- The sprite candidate at a column: the first opaque slot's (R283). -/
def sprPixel (c : Nat) (s : State) : Option SprPixel :=
  if !s.mask.getLsbD 4 || (decide (c < 8) && !s.mask.getLsbD 2) then none
  else s.obuf.findSome? (slotPixel c)

/-- `Composite(bg, sp)` (R284). -/
def composite (bg : Option (BitVec 4)) (sp : Option SprPixel) : BitVec 5 :=
  let below : BitVec 5 :=
    match bg with
    | some i => i.setWidth 5
    | none => 0
  match sp with
  | some p => if !p.behind || bg.isNone then (1 : BitVec 1) ++ p.palg ++ p.pv else below
  | none => below

/-- Whether a pixel is a sprite-zero hit (R285). -/
def zeroHit (bg : Option (BitVec 4)) (sp : Option SprPixel) (c : Nat) : Bool :=
  match sp with
  | some p => p.zero && bg.isSome && decide (c ≠ 255)
  | none => false

/-- The output index of a palette index under the mask's grayscale and emphasis bits (R287). -/
def outIndex (s : State) (i : BitVec 5) : OutIndex :=
  let colour := s.palRead i
  let shown := if s.mask.getLsbD 0 then colour &&& 0x30 else colour
  s.mask.extractLsb' 5 3 ++ shown

/-- `Emit(c, i)`: the pixel goes to the bound buffer, which has 240 rows of 256 columns (R56, R287). -/
def emitPixel (c : Nat) (i : BitVec 5) (s : State) : State :=
  if s.outBound && decide (s.line.toNat < 240) && decide (c < 256) then
    { s with out := s.out.write (s.line.toNat * 256 + c) (outIndex s i) }
  else s

/-- The column of the current dot (R280). -/
def State.column (s : State) : Nat := s.dot.toNat - 1

/-- Pixel with rendering enabled (R281). -/
def microPixel (s : State) : State :=
  let c := s.column
  let bg := bgPixel c s
  let sp := sprPixel c s
  emitPixel c (composite bg sp) { s with s0hit := s.s0hit || zeroHit bg sp c }

/-- The palette index shown with rendering disabled (R286). -/
def offIndex (v : VAddr) : BitVec 5 := if v &&& 0x3F00 = 0x3F00 then v.setWidth 5 else 0

/-- Pixel with rendering disabled (R286). -/
def microPixelOff (s : State) : State := emitPixel s.column (offIndex s.v) s

/-- DOT_PIXEL. -/
def execDotPixel (s : State) : Host.Outcome State Fault Refusal := .next (microPixel s)

/-- DOT_PIXELOFF. -/
def execDotPixelOff (s : State) : Host.Outcome State Fault Refusal := .next (microPixelOff s)

end Sys2Proof.Machine
end

