-- ==== Sys2Proof/Machine/Sprites.lean ====
section
/-! DEFINITION. The sprite micro-operations (43_sprites.md). -/

namespace Sys2Proof.Machine

/-- OAM entry `n` as the secondary buffer holds it (R244). -/
def State.oamEntry (s : State) (n : Nat) : SprEntry :=
  { y := s.oamByte (4 * n), tile := s.oamByte (4 * n + 1), attr := s.oamByte (4 * n + 2), x := s.oamByte (4 * n + 3)
    idx := BitVec.ofNat 6 n }

/-- The selection loop from entry `n` on, with `left` entries left in OAM: the entries selected, and the index after the
last entry examined (R244). -/
def evalLoop (s : State) (line cap : Nat) (left n : Nat) (sec : List SprEntry) : List SprEntry × Nat :=
  match left with
  | 0 => (sec, n)
  | left + 1 =>
    if sec.length < cap then
      if inRange (spriteHeight s.ctrl) (s.oamByte (4 * n)) line then
        evalLoop s line cap left (n + 1) (sec ++ [s.oamEntry n])
      else evalLoop s line cap left (n + 1) sec
    else (sec, n)

/-- The diagonal overflow scan from entry `n`, byte `m`, with `left` entries left (R245, OVERFLOW_BUG = true). -/
def diagonalScan (s : State) (line : Nat) (left n m : Nat) : Bool :=
  match left with
  | 0 => false
  | left + 1 =>
    inRange (spriteHeight s.ctrl) (s.oamByte (4 * n + m)) line || diagonalScan s line left (n + 1) ((m + 1) % 4)

/-- Some entry from `n` on is in range (R245, OVERFLOW_BUG = false). -/
def plainScan (s : State) (line : Nat) (left n : Nat) : Bool :=
  match left with
  | 0 => false
  | left + 1 => inRange (spriteHeight s.ctrl) (s.oamByte (4 * n)) line || plainScan s line left (n + 1)

/-- Whether `OverflowCheck(n, L)` sets the flag (R245). -/
def overflowSet (s : State) (line : Nat) (sec : List SprEntry) (n : Nat) : Bool :=
  match s.cfg.limit with
  | .unlimited => false
  | .eight =>
    if sec.length < 8 then false
    else if s.cfg.overflowBug then diagonalScan s line (64 - n) n 0
    else plainScan s line (64 - n) n

/-- The evaluation of the current line: the new secondary buffer, and whether the overflow flag is set (R244, R245). -/
def evaluate (s : State) : List SprEntry × Bool :=
  let line := s.line.toNat
  let (sec, n) := evalLoop s line s.cfg.limit.cap 64 0 []
  (sec, overflowSet s line sec n)

/-- Sprite evaluation (R244, R245). -/
def microEval (s : State) : State :=
  let (sec, overflow) := evaluate s
  { s with sec, ovf := s.ovf || overflow }

/-- OAMADDR zeroing (R248). -/
def microOamZero (s : State) : State := { s with oamAddr := 0 }

/-- The slot of a dot in 257-320 (R249, R251). -/
def State.slot (s : State) : Nat := (s.dot.toNat - 257) >>> 3

/-- The entry slot `k` is full with, or `none`: every slot is empty off the visible lines (R249). -/
def State.slotEntry (s : State) (k : Nat) : Option SprEntry :=
  if s.onVisibleLine then s.sec[k]? else none

/-- The first dummy nametable fetch of a slot (R250). -/
def microSprNt2 (s : State) : State := (busFetch (ntAddr s.v) s).2

/-- The second dummy nametable fetch of a slot (R250). -/
def microSprNt4 (s : State) : State := (busFetch (ntAddr s.v) s).2

/-- Sprite slot pattern low fetch (R251). -/
def microSprLo (s : State) : State :=
  let (b, t) := busFetch (sprAddr s.ctrl (s.slotEntry s.slot) s.line) s
  { t with sprLo := b }

/-- The output slot an entry and its two pattern bytes give; an empty slot is `none` (R252). -/
def slotOf (e : Option SprEntry) (hi lo : Byte) : Option OutSlot :=
  match e with
  | none => none
  | some f =>
    some
      { x := f.x, behind := f.attr.getLsbD 5, zero := decide (f.idx = 0), palg := f.attr.setWidth 2
        px := sprPixels (f.attr.getLsbD 6) hi lo }

/-- Sprite slot pattern high fetch and output slot write (R252). -/
def microSprHi (s : State) : State :=
  let e := s.slotEntry s.slot
  let (hi, t) := busFetch (sprAddr s.ctrl e s.line ||| 8) s
  { t with obuf := t.obuf.set s.slot (slotOf e hi s.sprLo) }

/-- Fill one extra slot, with no bus event (R253). -/
def fillExtra (s : State) (k : Nat) : State :=
  match s.slotEntry k with
  | none => { s with obuf := s.obuf.set k none }
  | some e =>
    let a := sprAddr s.ctrl (some e) s.line
    let (lo, t) := ppuRead a s
    let (hi, u) := ppuRead (a ||| 8) t
    { u with obuf := u.obuf.set k (slotOf (some e) hi lo) }

/-- The extra slots of the unlimited mode (R253). -/
def microSprExtra (s : State) : State :=
  ((List.range 56).map (· + 8)).foldl fillExtra s

/-- DOT_EVAL. -/
def execDotEval (s : State) : Host.Outcome State Fault Refusal := .next (microEval s)

/-- DOT_OAMZERO. -/
def execDotOamZero (s : State) : Host.Outcome State Fault Refusal := .next (microOamZero s)

/-- DOT_SPRNT2. -/
def execDotSprNt2 (s : State) : Host.Outcome State Fault Refusal := .next (microSprNt2 s)

/-- DOT_SPRNT4. -/
def execDotSprNt4 (s : State) : Host.Outcome State Fault Refusal := .next (microSprNt4 s)

/-- DOT_SPRLO. -/
def execDotSprLo (s : State) : Host.Outcome State Fault Refusal := .next (microSprLo s)

/-- DOT_SPRHI. -/
def execDotSprHi (s : State) : Host.Outcome State Fault Refusal := .next (microSprHi s)

/-- DOT_SPREXTRA. -/
def execDotSprExtra (s : State) : Host.Outcome State Fault Refusal := .next (microSprExtra s)

end Sys2Proof.Machine
end

