-- ==== Sys2Proof/Machine/DotEngine.lean ====
section
/-! DEFINITION. The dot engine (41_state_machine.md): the frame events, the position advance, one dot step, and running
dots up to a time. -/

namespace Sys2Proof.Machine

/-! ### Frame events -/

/-- VBlankEnter (R180). -/
def microVblSet (s : State) : State :=
  if s.vblSuppress then { s with vblSuppress := false } else { s with vbl := true }

/-- VBlankExit: the flag clear (R182). -/
def microVblClr (s : State) : State := { s with vbl := false, s0hit := false, ovf := false }

/-- The warm-up count (R184). -/
def microWarmCount (s : State) : State := { s with warmUp := s.warmUp - 1 }

/-! ### Position -/

/-- `nextBurst(S)` for a frame that was cut short by the skip or not (R348). -/
def nextBurst (short : Bool) (s : State) : BitVec 2 :=
  match s.cfg.std with
  | .pal => 0
  | .ntsc =>
    let frameDots := if short then s.cfg.std.frameShort else s.cfg.std.frameLong
    BitVec.ofNat 2 ((s.burstPhase.toNat + 2 * frameDots) % 3)

/-- `FrameWrap(S)` (R177). -/
def frameWrap (short : Bool) (s : State) : State :=
  { s with
    line := 0, dot := 0, burstPhase := nextBurst short s, frame := s.frame + 1
    odd := decide ((s.frame + 1) % 2 = 1) }

/-- Position advance (R177). -/
def advance (s : State) : State :=
  if s.dot.toNat < s.cfg.std.dots - 1 then { s with dot := s.dot + 1 }
  else if s.line.toNat < s.cfg.std.pre then { s with dot := 0, line := s.line + 1 }
  else frameWrap false s

/-- The odd-frame skip test with the advance it decides (R178). -/
def microSkip (s : State) : State :=
  if s.cfg.std.oddSkip && s.odd && s.renderOn then frameWrap true s else advance s

/-- An idle dot's micro-operation changes nothing; every dot's position and clock are the dot step's (R171, R176). -/
def microIdle (s : State) : State := s

/-! ### One dot -/

/-- Perform a micro-operation if its condition holds. -/
def gate (c : Bool) (f : State → State) (s : State) : State := if c then f s else s

/-- Whether a dot is in a range. -/
def inDots (lo hi dot : Nat) : Bool := decide (lo ≤ dot) && decide (dot ≤ hi)

/-- The background fetch step of a dot, by `dot mod 8` (R176 step 3.3, R211-R217). -/
def bgFetchStep (dot : Nat) (s : State) : State :=
  match dot % 8 with
  | 2 => microNt s
  | 4 => microAt s
  | 6 => microPtLo s
  | 0 => gate (decide (dot = 256)) microIncY (microIncX (microPtHi s))
  | _ => s

/-- The sprite slot fetch step of a dot, by `dot mod 8` (R176 step 3.6, R250-R253). -/
def sprFetchStep (dot : Nat) (s : State) : State :=
  match dot % 8 with
  | 2 => microSprNt2 s
  | 4 => microSprNt4 s
  | 6 => microSprLo s
  | 0 => gate (decide (dot = 320) && decide (s.cfg.limit = .unlimited)) microSprExtra (microSprHi s)
  | _ => s

/-- The micro-operations of step 3 of R176, which run under `renderActive`, at a line and a dot. -/
def renderOps (visible pre : Bool) (dot : Nat) (s : State) : State :=
  let bg := inDots 1 256 dot || inDots 321 336 dot
  let spr := inDots 257 320 dot
  let s := gate (visible && inDots 1 256 dot) microPixel s
  let s := gate bg microShift s
  let s := gate bg (bgFetchStep dot) s
  let s := gate (visible && decide (dot = evalDot)) microEval s
  let s := gate (decide (dot = 257)) microHCopy s
  let s := gate (pre && inDots 280 304 dot) microVCopy s
  let s := gate spr microOamZero s
  let s := gate spr (sprFetchStep dot) s
  let s := gate (decide (dot = 338)) microDummyNt338 s
  gate (decide (dot = 340)) microDummyNt340 s

/-- The micro-operations of the dot at the state's position, in the order of R176, but for the skip test. -/
def dotBody (s : State) : State :=
  let r := s.renderActive
  let visible := s.onVisibleLine
  let pre := decide (s.line.toNat = s.cfg.std.pre)
  let dot := s.dot.toNat
  let vblSet := s.at s.cfg.std.vblFirst 1
  let vblClr := s.at s.cfg.std.pre 1
  let s := gate vblSet microVblSet s
  let s := gate vblClr microVblClr s
  let s := gate vblClr microWarmCount s
  let s := gate r (renderOps visible pre dot) s
  gate (!r && visible && inDots 1 256 dot) microPixelOff s

/-- The position advance of a dot: the skip test at (PRE, 339), R177 elsewhere (R171, R178). -/
def dotAdvance (s : State) : State :=
  if s.at s.cfg.std.pre 339 then microSkip s else advance s

/-- The clock after a dot (R34, R171). -/
def tick (s : State) : State := { s with clock := s.clock + s.cfg.std.dotMaster }

/-- `DotStep(S)`: one dot (R171). -/
def dotStep (s : State) : State := nmiEdge s (tick (dotAdvance (dotBody s)))

/-- `n` dots. -/
def runDots (n : Nat) (s : State) : State :=
  match n with
  | 0 => s
  | n + 1 => runDots n (dotStep s)

/-- Dots while `clock ≤ T`, at most `fuel` of them (R342). -/
def runUntil (fuel time : Nat) (s : State) : State :=
  match fuel with
  | 0 => s
  | fuel + 1 => if s.clock ≤ time then runUntil fuel time (dotStep s) else s

/-- `Update(T)` (R342). The clock rises with every dot, so no more than `T + 1 - clock` dots can start by `T`. -/
def updateTo (time : Nat) (s : State) : State := runUntil (time + 1 - s.clock) time s

/-! ### Phases -/

/-- The document's phases (R175). -/
inductive Phase where
  | warmUp
  | visibleLine (sub : Nat)
  | postRenderLine
  | vblankEnter
  | vblankHold
  | vblankExit
  | preRenderLine
  deriving DecidableEq, Repr

/-- `phaseOf(S)`: reported for tracing only; no rule reads it (R175). -/
def phaseOf (s : State) : Phase :=
  let std := s.cfg.std
  let line := s.line.toNat
  let dot := s.dot.toNat
  if 0 < s.warmUp then .warmUp
  else if line < std.visible then .visibleLine (dot % 8)
  else if line = std.postLine then .postRenderLine
  else if line = std.vblFirst ∧ dot = 0 then .postRenderLine
  else if line = std.vblFirst ∧ dot = 1 then .vblankEnter
  else if line < std.pre then .vblankHold
  else if dot = 1 then .vblankExit
  else .preRenderLine

/-! ### The instructions -/

/-- DOT_VBLSET. -/
def execDotVblSet (s : State) : Host.Outcome State Fault Refusal := .next (microVblSet s)

/-- DOT_VBLCLR. -/
def execDotVblClr (s : State) : Host.Outcome State Fault Refusal := .next (microVblClr s)

/-- DOT_WARMCOUNT. -/
def execDotWarmCount (s : State) : Host.Outcome State Fault Refusal := .next (microWarmCount s)

/-- DOT_SKIP. -/
def execDotSkip (s : State) : Host.Outcome State Fault Refusal := .next (microSkip s)

/-- DOT_IDLE. -/
def execDotIdle (s : State) : Host.Outcome State Fault Refusal := .next (microIdle s)

/-- `Update(T)`, which returns nothing (R342). -/
def execUpdate (time : Nat) (s : State) : Host.Outcome State Fault Refusal :=
  .next (answer .nothing (updateTo time s))

end Sys2Proof.Machine
end

