-- ==== Sys2Proof/Machine/Codec.lean ====
section
/-! DEFINITION. The byte layout of the persisted chunks (46_host_interface.md R351-R355). Field order is that of R352's
table and multi-byte fields are little-endian (R355); the rest of the layout is the model's (log entry 13). A decoder
takes a byte sequence and gives a value with the bytes left, or nothing. -/

namespace Sys2Proof.Machine

/-- A decoder of a field. -/
abbrev Dec (α : Type) := List Byte → Option (α × List Byte)

/-! ### Fields -/

/-- A flag: one byte, 1 or 0. -/
def encBool (b : Bool) : List Byte := [if b then 1 else 0]

/-- A flag is bit 0 of its byte (R14; log entry 14). -/
def decBool : Dec Bool
  | [] => none
  | b :: rest => some (b.getLsbD 0, rest)

/-- A field of at most 8 bits: one byte. -/
def enc8 {w : Nat} (v : BitVec w) : List Byte := [v.setWidth 8]

/-- The low `w` bits of one byte. -/
def dec8 (w : Nat) : Dec (BitVec w)
  | [] => none
  | b :: rest => some (b.setWidth w, rest)

/-- A field of 9 to 16 bits: two bytes, low byte first (R355). -/
def enc16 {w : Nat} (v : BitVec w) : List Byte := [v.setWidth 8, (v.setWidth 16 >>> 8).setWidth 8]

/-- The low `w` bits of two bytes. -/
def dec16 (w : Nat) : Dec (BitVec w)
  | lo :: hi :: rest => some (((hi ++ lo : BitVec 16)).setWidth w, rest)
  | _ => none

/-- A natural number in groups of seven bits, low group first, bit 7 marking that more follow; at most `fuel + 1`
groups. -/
def natGroups (fuel n : Nat) : List Byte :=
  match fuel with
  | 0 => [BitVec.ofNat 8 n]
  | fuel + 1 => if n < 128 then [BitVec.ofNat 8 n] else BitVec.ofNat 8 (n % 128 + 128) :: natGroups fuel (n / 128)

/-- A natural number of unbounded width (R34, R35). -/
def encNat (n : Nat) : List Byte := natGroups n n

/-- Read a natural number. Redundant groups are accepted: 0x80 0x00 reads as 0, as 0x00 does (the model's choice, log
entry 31). -/
def decNat : Dec Nat
  | [] => none
  | b :: rest =>
    if b.toNat < 128 then some (b.toNat, rest)
    else
      match decNat rest with
      | none => none
      | some (n, rest') => some (b.toNat - 128 + 128 * n, rest')

/-- Read `n` values. -/
def decTimes {α : Type} (n : Nat) (f : Dec α) : Dec (List α) := fun bytes =>
  match n with
  | 0 => some ([], bytes)
  | n + 1 => do
    let (a, bytes) ← f bytes
    let (as, bytes) ← decTimes n f bytes
    return (a :: as, bytes)

/-- Read one value with each decoder of a list. -/
def decAll {α : Type} (fs : List (Dec α)) : Dec (List α) := fun bytes =>
  match fs with
  | [] => some ([], bytes)
  | f :: fs => do
    let (a, bytes) ← f bytes
    let (as, bytes) ← decAll fs bytes
    return (a :: as, bytes)

/-! ### Records -/

/-- An entry of the secondary buffer: Y, tile, attribute, X, index (R49). -/
def encEntry (e : SprEntry) : List Byte := enc8 e.y ++ enc8 e.tile ++ enc8 e.attr ++ enc8 e.x ++ enc8 e.idx

/-- Read an entry of the secondary buffer. -/
def decEntry : Dec SprEntry := fun bytes => do
  let (y, bytes) ← dec8 8 bytes
  let (tile, bytes) ← dec8 8 bytes
  let (attr, bytes) ← dec8 8 bytes
  let (x, bytes) ← dec8 8 bytes
  let (idx, bytes) ← dec8 6 bytes
  return ({ y, tile, attr, x, idx }, bytes)

/-- The secondary buffer: its length, then its entries. -/
def encSec (sec : List SprEntry) : List Byte := encNat sec.length ++ sec.flatMap encEntry

/-- Read a secondary buffer of at most `cap` entries, in whatever order of `idx` they stand (R49; the model's choice, log
entry 14). -/
def decSec (cap : Nat) : Dec (List SprEntry) := fun bytes => do
  let (n, bytes) ← decNat bytes
  if n ≤ cap then decTimes n decEntry bytes else none

/-- An output slot: a byte 0 when empty, else a byte 1 and the slot's fields (R50). -/
def encSlot (o : Option OutSlot) : List Byte :=
  match o with
  | none => encBool false
  | some o => encBool true ++ enc8 o.x ++ encBool o.behind ++ encBool o.zero ++ enc8 o.palg ++ o.px.flatMap enc8

/-- Read an output slot. -/
def decSlot : Dec (Option OutSlot) := fun bytes => do
  let (full, bytes) ← decBool bytes
  if full then
    let (x, bytes) ← dec8 8 bytes
    let (behind, bytes) ← decBool bytes
    let (zero, bytes) ← decBool bytes
    let (palg, bytes) ← dec8 2 bytes
    let (px, bytes) ← decTimes 8 (dec8 2) bytes
    return (some { x, behind, zero, palg, px }, bytes)
  else return (none, bytes)

/-- A page's entry and hook: source, offset, and 0 for no hook or the hook's identifier plus 1 (R92, R54). -/
def encPage (p : PageEntry × Option Nat) : List Byte :=
  encNat p.1.src ++ encNat p.1.off ++
    encNat (match p.2 with
      | none => 0
      | some h => h + 1)

/-- Read a page's entry and hook; a source the substrate does not have is corrupt (R353), any offset is taken (log
entry 14). -/
def decPage (nsrc : Nat) : Dec (PageEntry × Option Nat) := fun bytes => do
  let (src, bytes) ← decNat bytes
  if nsrc ≤ src then none
  else
    let (off, bytes) ← decNat bytes
    let (h, bytes) ← decNat bytes
    return ((⟨src, off⟩, if h = 0 then none else some (h - 1)), bytes)

/-- A source's size and flags (R352). -/
def encSourceHead (src : Source) : List Byte := encNat src.size ++ encBool src.readable ++ encBool src.writable

/-- Read a source's size and flags into it; a size that is no power of two is no size of a source (R91; log entry 14).
Whether the source can be rebuilt follows the flags (log entry 12). The bytes are kept: past the old end, where a larger
size now reaches, they are what the store has there (the model's choice, log entry 29). -/
def decSourceHead (src : Source) : Dec Source := fun bytes => do
  let (size, bytes) ← decNat bytes
  let (readable, bytes) ← decBool bytes
  let (writable, bytes) ← decBool bytes
  if isPow2 size then return ({ src with size, readable, writable, rederivable := !writable }, bytes) else none

/-- The bytes of a source that cannot be rebuilt (R352). -/
def encSourceBytes (src : Source) : List Byte := if src.rederivable then [] else src.bytes.toBytes src.size

/-- Read the bytes of a source that cannot be rebuilt; one that can keeps the bytes it has (R353), whatever its size has
become (log entry 29). -/
def decSourceBytes (src : Source) : Dec Source := fun bytes =>
  if src.rederivable then some (src, bytes)
  else
    match decTimes src.size (dec8 8) bytes with
    | none => none
    | some (l, bytes) => some ({ src with bytes := Store.ofBytes l }, bytes)

/-! ### Chunks -/

/-- `TAG_REG` (R352). -/
def encReg (s : State) : List Byte :=
  enc8 s.ctrl ++ enc8 s.mask ++ encBool s.vbl ++ encBool s.s0hit ++ encBool s.ovf ++ enc8 s.latch ++ enc8 s.oamAddr ++
  encBool s.nmiReq ++
  enc16 s.line ++ enc16 s.dot ++ encNat s.clock ++ encNat s.frame ++ encBool s.odd ++ encNat s.warmUp ++
  encBool s.vblSuppress ++ enc8 s.burstPhase ++
  enc8 s.ntLatch ++ enc8 s.atLatch ++ enc8 s.ptLo ++ enc8 s.ptHi ++
  enc16 s.shLo ++ enc16 s.shHi ++ enc16 s.atShLo ++ enc16 s.atShHi ++ enc8 s.sprLo ++
  encSec s.sec ++ s.obuf.flatMap encSlot ++ enc16 s.lastBus

/-- Read `TAG_REG`'s port registers into a state. -/
def decRegPorts (s : State) : Dec State := fun bytes => do
  let (ctrl, bytes) ← dec8 8 bytes
  let (mask, bytes) ← dec8 8 bytes
  let (vbl, bytes) ← decBool bytes
  let (s0hit, bytes) ← decBool bytes
  let (ovf, bytes) ← decBool bytes
  let (latch, bytes) ← dec8 8 bytes
  let (oamAddr, bytes) ← dec8 8 bytes
  let (nmiReq, bytes) ← decBool bytes
  return ({ s with ctrl, mask, vbl, s0hit, ovf, latch, oamAddr, nmiReq }, bytes)

/-- Read `TAG_REG`'s dot engine fields into a state, each as it stands: no ground of failure ties `odd` to `frame` or a
position to the frame (the model's choice, log entry 14). -/
def decRegEngine (s : State) : Dec State := fun bytes => do
  let (line, bytes) ← dec16 9 bytes
  let (dot, bytes) ← dec16 9 bytes
  let (clock, bytes) ← decNat bytes
  let (frame, bytes) ← decNat bytes
  let (odd, bytes) ← decBool bytes
  let (warmUp, bytes) ← decNat bytes
  let (vblSuppress, bytes) ← decBool bytes
  let (burstPhase, bytes) ← dec8 2 bytes
  return ({ s with line, dot, clock, frame, odd, warmUp, vblSuppress, burstPhase }, bytes)

/-- Read `TAG_REG`'s pipeline fields into a state. -/
def decRegPipeline (s : State) : Dec State := fun bytes => do
  let (ntLatch, bytes) ← dec8 8 bytes
  let (atLatch, bytes) ← dec8 2 bytes
  let (ptLo, bytes) ← dec8 8 bytes
  let (ptHi, bytes) ← dec8 8 bytes
  let (shLo, bytes) ← dec16 16 bytes
  let (shHi, bytes) ← dec16 16 bytes
  let (atShLo, bytes) ← dec16 16 bytes
  let (atShHi, bytes) ← dec16 16 bytes
  let (sprLo, bytes) ← dec8 8 bytes
  return ({ s with ntLatch, atLatch, ptLo, ptHi, shLo, shHi, atShLo, atShHi, sprLo }, bytes)

/-- Read `TAG_REG`'s sprite buffers and last bus address into a state. -/
def decRegSprites (s : State) : Dec State := fun bytes => do
  let (sec, bytes) ← decSec s.cfg.limit.cap bytes
  let (obuf, bytes) ← decTimes s.cfg.limit.slots decSlot bytes
  let (lastBus, bytes) ← dec16 14 bytes
  return ({ s with sec, obuf, lastBus }, bytes)

/-- Read `TAG_REG` into a state. -/
def decReg (s : State) : Dec State := fun bytes => do
  let (s, bytes) ← decRegPorts s bytes
  let (s, bytes) ← decRegEngine s bytes
  let (s, bytes) ← decRegPipeline s bytes
  decRegSprites s bytes

/-- `TAG_SCROLL` (R352). -/
def encScroll (s : State) : List Byte := enc16 s.v ++ enc16 s.t ++ enc8 s.x ++ encBool s.w ++ enc8 s.readBuf

/-- Read `TAG_SCROLL` into a state. -/
def decScroll (s : State) : Dec State := fun bytes => do
  let (v, bytes) ← dec16 15 bytes
  let (t, bytes) ← dec16 15 bytes
  let (x, bytes) ← dec8 3 bytes
  let (w, bytes) ← decBool bytes
  let (readBuf, bytes) ← dec8 8 bytes
  return ({ s with v, t, x, w, readBuf }, bytes)

/-- `TAG_OAM`: the 256 bytes (R352). -/
def encOam (s : State) : List Byte := (List.range 256).map s.oamByte

/-- The store of OAM bytes read, without the bits that do not exist (R128). -/
def oamOfBytes (bytes : List Byte) : Store 8 :=
  Store.ofBytes ((List.range bytes.length).map fun i => oamMask i (bytes.getD i 0))

/-- Read `TAG_OAM` into a state. -/
def decOam (s : State) : Dec State := fun bytes => do
  let (l, bytes) ← decTimes 256 (dec8 8) bytes
  return ({ s with oam := oamOfBytes l }, bytes)

/-- `TAG_PAL`: the 32 entries (R352). -/
def encPal (s : State) : List Byte := (List.range 32).flatMap fun i => enc8 (s.pal.read i)

/-- Read `TAG_PAL` into a state. -/
def decPal (s : State) : Dec State := fun bytes => do
  let (l, bytes) ← decTimes 32 (dec8 6) bytes
  return ({ s with pal := Store.ofBytes l }, bytes)

/-- A substrate's pages with their hooks. -/
def encPages (c : Substrate) : List Byte := (c.pt.zip c.hooks).flatMap encPage

/-- Read a substrate's pages with their hooks. -/
def decPages (c : Substrate) : Dec Substrate := fun bytes => do
  let (l, bytes) ← decTimes c.pt.length (decPage c.nsrc) bytes
  return ({ c with pt := l.map (·.1), hooks := l.map (·.2) }, bytes)

/-- Read the heads of a substrate's sources. -/
def decHeads (c : Substrate) : Dec Substrate := fun bytes => do
  let (srcs, bytes) ← decAll (c.srcs.map decSourceHead) bytes
  return ({ c with srcs }, bytes)

/-- Read the bytes of a substrate's sources. -/
def decBytes (c : Substrate) : Dec Substrate := fun bytes => do
  let (srcs, bytes) ← decAll (c.srcs.map decSourceBytes) bytes
  return ({ c with srcs }, bytes)

/-- Read a mirroring mode (R53; log entry 14). -/
def decMirror : Dec Mirror := fun bytes => do
  let (b, bytes) ← dec8 8 bytes
  let m ← Mirror.ofCode b.toNat
  return (m, bytes)

/-- `TAG_BANKS` (R352). -/
def encBanks (s : State) : List Byte :=
  encPages s.chr ++ encPages s.nmt ++ enc8 (BitVec.ofNat 8 s.mirror.code) ++
  s.chr.srcs.flatMap encSourceHead ++ s.nmt.srcs.flatMap encSourceHead ++
  s.chr.srcs.flatMap encSourceBytes ++ s.nmt.srcs.flatMap encSourceBytes

/-- Read `TAG_BANKS` into a state. -/
def decBanks (s : State) : Dec State := fun bytes => do
  let (chr, bytes) ← decPages s.chr bytes
  let (nmt, bytes) ← decPages s.nmt bytes
  let (mirror, bytes) ← decMirror bytes
  let (chr, bytes) ← decHeads chr bytes
  let (nmt, bytes) ← decHeads nmt bytes
  let (chr, bytes) ← decBytes chr bytes
  let (nmt, bytes) ← decBytes nmt bytes
  return ({ s with chr, nmt, mirror }, bytes)

/-- A chunk whose stated length is its byte count. -/
def chunkOf (tag : Tag) (bytes : List Byte) : Chunk := { tag, len := bytes.length, bytes }

/-- The chunks of a snapshot (R352). -/
def snapshotChunks (s : State) : List Chunk :=
  [ chunkOf .reg (encReg s), chunkOf .scroll (encScroll s), chunkOf .oam (encOam s), chunkOf .banks (encBanks s),
    chunkOf .pal (encPal s) ]

/-- A layout must take the chunk's bytes to their end (R353: `len` is the length the layout requires). -/
def wholly (r : Option (State × List Byte)) : Option State :=
  match r with
  | some (s, []) => some s
  | _ => none

/-- Write a chunk's fields into a state; an unknown tag is skipped; a malformed length or an unknown source fails
(R353). -/
def restoreChunk (s : State) (c : Chunk) : Option State :=
  if c.len ≠ c.bytes.length then none
  else
    match c.tag with
    | .reg => wholly (decReg s c.bytes)
    | .scroll => wholly (decScroll s c.bytes)
    | .oam => wholly (decOam s c.bytes)
    | .banks => wholly (decBanks s c.bytes)
    | .pal => wholly (decPal s c.bytes)
    | .unknown _ => some s

/-- Write every chunk, in order, or fail (R353). -/
def restoreAll (chunks : List Chunk) (s : State) : Option State :=
  match chunks with
  | [] => some s
  | c :: rest =>
    match restoreChunk s c with
    | some t => restoreAll rest t
    | none => none

end Sys2Proof.Machine
end

