-- ==== Sys2Proof/Machine/Substrate.lean ====
section
/-! DEFINITION. The calls on the paged memory substrate (40_substrate_ops.md). -/

namespace Sys2Proof.Machine

/-- The contents of a source just set: the bytes given, or free values from draw `base` on (R150, I17). -/
def sourceContents (base : Nat) (contents : Option (List Byte)) : Store 8 :=
  match contents with
  | some bytes => Store.ofBytes bytes
  | none => Store.drawn base

/-- `Set`'s effect on the source; the page table is not changed (R150). Whether the contents can be rebuilt from the ROM
image is read off the flags (R91, R352; log entry 12). -/
def Substrate.setSource (c : Substrate) (i : Nat) (readable writable : Bool) (size : Nat) (bytes : Store 8) : Substrate :=
  { c with srcs := c.srcs.set i { bytes, size, readable, writable, rederivable := !writable } }

/-- `Set(X, s, readable, writable, size [, contents])` and its short form (R150). -/
def execSet (x : Sub) (src : Nat) (flags : Option (Bool × Bool)) (size : Nat) (contents : Option (List Byte))
    (s : State) : Host.Outcome State Fault Refusal :=
  let c := s.sub x
  if decide (src < c.nsrc) && isPow2 size then
    let (readable, writable) := flags.getD ((c.source src).readable, (c.source src).writable)
    let c' := c.setSource src readable writable size (sourceContents s.draws contents)
    let draws := if contents.isNone then s.draws + size else s.draws
    .next (answer .nothing { s.setSub x c' with draws })
  else .next (refuse .badSource s)

/-- `SwapBank(X, S, A, s, [b0, ...])` (R151-R153). -/
def execSwapBank (x : Sub) (run start src : Nat) (banks : List Nat) (s : State) : Host.Outcome State Fault Refusal :=
  match swapBank x run start src banks s with
  | .ok t => .next (answer .nothing t)
  | .error r => .next (refuse r s)

/-- `Peek_X(a)`, which returns the byte (R154). -/
def execPeek (x : Sub) (a : Nat) (s : State) : Host.Outcome State Fault Refusal :=
  let (b, t) := peekSub x a s
  .next (answer (.byte b) t)

/-- `Poke_X(a, d)` (R155). -/
def execPoke (x : Sub) (a : Nat) (d : Byte) (s : State) : Host.Outcome State Fault Refusal :=
  .next (answer .nothing (pokeSub x a d s))

/-- Set a page's accessor, or refuse a page that does not exist (R157). -/
def setHook (x : Sub) (p : Nat) (h : Option Nat) (s : State) : State :=
  let c := s.sub x
  if p < c.npages then answer .nothing (s.setSub x { c with hooks := c.hooks.set p h }) else refuse .badPage s

/-- `InstallHook(X, p, h)` (R157). -/
def execInstallHook (x : Sub) (p h : Nat) (s : State) : Host.Outcome State Fault Refusal :=
  .next (setHook x p (some h) s)

/-- `RemoveHook(X, p)` (R157). -/
def execRemoveHook (x : Sub) (p : Nat) (s : State) : Host.Outcome State Fault Refusal :=
  .next (setHook x p none s)

/-- `SetMirroring(m)` (R158, R159). -/
def execSetMirroring (code : Nat) (s : State) : Host.Outcome State Fault Refusal :=
  match Mirror.ofCode code with
  | none => .next (refuse .badMirroring s)
  | some m =>
    match setMirror m s with
    | .ok t => .next (answer .nothing t)
    | .error r => .next (refuse r s)

end Sys2Proof.Machine
end

