-- ==== Sys2Proof/Machine/HostCalls.lean ====
section
/-! DEFINITION. The host interface (46_host_interface.md) but for `Update`: construction, reset, the frame output, the
NMI handshake, the persisted state. -/

namespace Sys2Proof.Machine

/-! ### Reset (R341, R400, R60) -/

/-- The bytes of `NMT` source 0, drawn from draw `base` on (R60, R96). -/
def drawCiram (base : Nat) (c : Substrate) : Substrate :=
  match c.srcs with
  | [] => c
  | ciram :: rest => { c with srcs := { ciram with bytes := Store.drawn base } :: rest }

/-- The draws a reset takes: 16 for single fields, 256 for OAM, 32 for the palette, the rest for CIRAM. -/
def resetDraws (s : State) : Nat := 16 + 256 + 32 + (s.nmt.source 0).size

/-- The free value numbered `n`, as a bit. -/
def freeBit (n : Nat) : Bool := (Config.free n).getLsbD 0

/-- The free value numbered `n`, as a field of `w` bits. -/
def freeField (w n : Nat) : BitVec w := (Config.free n).setWidth w

/-- The fields that both kinds of reset assign alike (R60). -/
def resetCommon (time : Nat) (s : State) : State :=
  let n := s.draws
  { s with
    line := 0, dot := 0, clock := time, frame := 0, odd := false, warmUp := warmUpFrames
    vblSuppress := false, burstPhase := 0, ctrl := 0x00, mask := 0x00
    t := 0, x := 0, w := false, readBuf := 0x00, nmiReq := false
    ovf := freeBit n
    ntLatch := freeField 8 (n + 1), atLatch := freeField 2 (n + 2)
    ptLo := freeField 8 (n + 3), ptHi := freeField 8 (n + 4)
    shLo := freeField 16 (n + 5), shHi := freeField 16 (n + 6)
    atShLo := freeField 16 (n + 7), atShHi := freeField 16 (n + 8)
    sprLo := freeField 8 (n + 9)
    sec := [], obuf := List.replicate s.cfg.limit.slots none
    lastBus := 0, trace := []
    draws := n + resetDraws s }

/-- The fields a hard reset assigns and a soft reset keeps (R60); `n` is the number of the reset's first draw. -/
def resetHard (n : Nat) (s : State) : State :=
  { s with
    vbl := freeBit (n + 10), s0hit := false, latch := 0x00, oamAddr := 0x00, v := 0
    oam := Store.drawn (n + 16), pal := Store.drawn (n + 16 + 256)
    nmt := drawCiram (n + 16 + 256 + 32) s.nmt }

/-- What a soft reset alone does: the sprite-zero flag is drawn (R60). -/
def resetSoft (n : Nat) (s : State) : State := { s with s0hit := freeBit (n + 11) }

/-- `Reset(hard, T)` (R341, R400). -/
def resetTo (hard : Bool) (time : Nat) (s : State) : State :=
  let t := resetCommon time s
  if hard then resetHard s.draws t else resetSoft s.draws t

/-- RESET. -/
def execReset (hard : Bool) (time : Nat) (s : State) : Host.Outcome State Fault Refusal :=
  .next (answer .nothing (resetTo hard time s))

/-! ### Construction (R344) -/

/-- A geometry that R90 allows. -/
def Geometry.ok (g : Geometry) : Bool := isPow2 g.space && isPow2 g.page && decide (g.space % g.page = 0)

/-- A substrate of a geometry with its sources, every page bound as R97 says and no hook. -/
def buildSubstrate (g : Geometry) (srcs : List Source) : Substrate :=
  { space := g.space, page := g.page, srcs
    pt := (List.range (g.space / g.page)).map fun p => ⟨0, (p * g.page) &&& (srcs.getD 0 placeholderSource).mask⟩
    hooks := List.replicate (g.space / g.page) none }

/-- CIRAM, before the reset draws its contents (R96, R344). -/
def ciramSource : Source :=
  { bytes := Store.blank 0, size := ciramSize, readable := true, writable := true, rederivable := false }

/-- The instance before its mirroring and reset: substrates, sources and binding, no output bound (R344; log entry 11). -/
def rawInstance (cfg : Setup) (chr nmt : Geometry) (s : State) : State :=
  { s with
    cfg
    chr := buildSubstrate chr (List.replicate chr.nsrc placeholderSource)
    nmt := buildSubstrate nmt (ciramSource :: List.replicate (nmt.nsrc - 1) placeholderSource)
    out := Store.blank 0, outBound := false }

/-- `Construct(STD, SPRITE_LIMIT, OVERFLOW_BUG)`, or its refusal (R344, R90). -/
def construct (cfg : Setup) (chr nmt : Geometry) (s : State) : Except Reason State :=
  if Geometry.ok chr && Geometry.ok nmt then
    match setMirror .horizontal (rawInstance cfg chr nmt s) with
    | .ok t => .ok (resetTo true 0 t)
    | .error r => .error r
  else .error .badGeometry

/-- CONSTRUCT. -/
def execConstruct (cfg : Setup) (chr nmt : Geometry) (s : State) : Host.Outcome State Fault Refusal :=
  match construct cfg chr nmt s with
  | .ok t => .next (answer .nothing t)
  | .error r => .next (refuse r s)

/-! ### Frame output, NMI handshake, persisted state -/

/-- `BeginFrame(target)` (R345). -/
def execBeginFrame (target : Store 9) (s : State) : Host.Outcome State Fault Refusal :=
  .next (answer .nothing { s with out := target, outBound := true })

/-- `EndFrame()`, which returns the buffer and the burst phase (R346). -/
def execEndFrame (s : State) : Host.Outcome State Fault Refusal :=
  .next (answer (.frame s.out s.burstPhase) { s with outBound := false })

/-- `AckNmi()` (R350). -/
def execAckNmi (s : State) : Host.Outcome State Fault Refusal :=
  .next (answer .nothing { s with nmiReq := false })

/-- `Snapshot()`, which returns the chunks (R352). -/
def execSnapshot (s : State) : Host.Outcome State Fault Refusal :=
  .next (answer (.chunks (snapshotChunks s)) s)

/-- `Restore(chunks)`: every field of the chunks, or nothing (R353). The receiving instance's draw counter stays (the model's
choice, log entry 33). -/
def execRestore (chunks : List Chunk) (s : State) : Host.Outcome State Fault Refusal :=
  match restoreAll chunks s with
  | some t => .next (answer .nothing { t with trace := [] })
  | none => .next (failCorrupt s)

end Sys2Proof.Machine
end

