-- ==== Sys2Proof/Machine/Ports.lean ====
section
/-! DEFINITION. The register ports and DMA (45_register_ports.md). A port read is a function to the byte and the state
after it; a port write is a function to the state. The instructions add the NMI edge rule (R372), which follows every
port access, and the reply. -/

namespace Sys2Proof.Machine

/-! ### Port reads -/

/-- Every port read ends by storing the byte it returns in the latch (R300). -/
def latched (r : Byte × State) : Byte × State := (r.1, { r.2 with latch := r.1 })

/-- Read of a write-only port: the open-bus byte (R301). -/
def readLatch (s : State) : Byte × State := latched (s.latch, s)

/-- Whether the evaluation of this line is still to come and will set the overflow flag (R303 `pendingOvf`). -/
def pendingOvf (s : State) : Bool :=
  s.onVisibleLine && s.renderOn && decide (66 ≤ s.dot.toNat) && decide (s.dot.toNat ≤ 256) && (evaluate s).2

/-- The overflow bit of a status read: inside the window the flag may be seen early (R303, I12). -/
def ovfBit (s : State) : Bool × State :=
  if pendingOvf s then
    let (b, t) := drawBit s
    (s.ovf || b, t)
  else (s.ovf, s)

/-- The slot just before the vblank-set dot (R181, R304). -/
def atVblRace (s : State) : Bool := s.at s.cfg.std.vblFirst 1

/-- The slots in which a status read may cancel the NMI (R304, I11). -/
def inCancelSlots (s : State) : Bool :=
  decide (s.line.toNat = s.cfg.std.vblFirst) && decide (2 ≤ s.dot.toNat) && decide (s.dot.toNat ≤ 1 + nmiCancelSlots)

/-- The vblank bit of a status read and the race's effect (R304). -/
def vblBit (s : State) : Bool × State :=
  if atVblRace s then (false, { s with vblSuppress := true })
  else if inCancelSlots s then
    let (b, t) := drawBit s
    (s.vbl, { t with nmiReq := s.nmiReq && b })
  else (s.vbl, s)

/-- Read of port 2, PPUSTATUS (R303, R304). -/
def readStatus (s : State) : Byte × State :=
  let (vb, s1) := vblBit s
  let (ob, s2) := ovfBit s1
  latched (statusByte vb s2.s0hit ob s2.latch, { s2 with vbl := false, w := false })

/-- Read of port 4, OAMDATA (R314). -/
def readOamData (s : State) : Byte × State :=
  latched (if s.renderActive then drawByte s else (s.oamByte s.oamAddr.toNat, s))

/-- The data-port increment (R321). -/
def increment (s : State) : State :=
  if s.renderActive then { s with v := incY (incX s.v) }
  else
    let v := s.v + (if s.ctrl.getLsbD 2 then 32 else 1)
    emitBus (vBus v) { s with v }

/-- Read of port 7 outside rendering: the buffer below 0x3F00, the palette from there on (R320). -/
def readDataIdle (s : State) : Byte × State :=
  let a := vBus s.v
  let s1 := emitBus a s
  if a < 0x3F00 then
    let (b, s2) := ppuRead a s1
    (s1.readBuf, { s2 with readBuf := b })
  else
    let (b, s2) := ppuRead (a &&& 0x2FFF) s1
    (paletteByte s1.latch (s1.palRead (a.setWidth 5)), { s2 with readBuf := b })

/-- Read of port 7 during rendering: the buffer, refilled with a free value; memory is not reached (R323, I9). -/
def readDataRendering (s : State) : Byte × State :=
  let (b, t) := drawByte s
  (s.readBuf, { t with readBuf := b })

/-- Read of port 7, PPUDATA (R320, R321, R323). -/
def readData (s : State) : Byte × State :=
  let (b, t) := latched (if s.renderActive then readDataRendering s else readDataIdle s)
  (b, increment t)

/-- `PortRead(p)` (R330). -/
def portRead (p : BitVec 3) (s : State) : Byte × State :=
  if p = 2 then readStatus s else if p = 4 then readOamData s else if p = 7 then readData s else readLatch s

/-! ### Port writes -/

/-- Every port write stores its byte in the latch (R300). -/
def latchByte (d : Byte) (s : State) : State := { s with latch := d }

/-- A write that warm-up filters: only the latch changes (R185). -/
def unlessWarming (f : State → State) (s : State) : State := if s.warming then s else f s

/-- Write to port 0, PPUCTRL (R306). -/
def writeCtrl (d : Byte) (s : State) : State :=
  unlessWarming (fun s => { s with ctrl := d, t := ctrlIntoT s.t d }) (latchByte d s)

/-- Write to port 1, PPUMASK (R307). -/
def writeMask (d : Byte) (s : State) : State :=
  unlessWarming (fun s => { s with mask := d }) (latchByte d s)

/-- Write to port 2 (R305). -/
def writeStatus (d : Byte) (s : State) : State := latchByte d s

/-- Write to port 3, OAMADDR (R312). -/
def writeOamAddr (d : Byte) (s : State) : State := { latchByte d s with oamAddr := d }

/-- Write to port 4, OAMDATA (R313). -/
def writeOamData (d : Byte) (s : State) : State :=
  let s := latchByte d s
  if s.renderActive then { s with oamAddr := s.oamAddr + 4 }
  else
    { s with
      oam := s.oam.write s.oamAddr.toNat (oamMask s.oamAddr.toNat d)
      oamAddr := s.oamAddr + 1 }

/-- Write to port 5, PPUSCROLL: the half the toggle selects (R316). -/
def scrollWrite (d : Byte) (s : State) : State :=
  if s.w then { s with t := scrollYIntoT s.t d, w := false }
  else { s with t := scrollXIntoT s.t d, x := scrollFineX d, w := true }

/-- Write to port 5, PPUSCROLL (R316). -/
def writeScroll (d : Byte) (s : State) : State := unlessWarming (scrollWrite d) (latchByte d s)

/-- The second PPUADDR write: `t` is completed and copied to `v` (R318). -/
def addrSecond (d : Byte) (s : State) : State :=
  let t := addrLowIntoT s.t d
  let s := { s with t, v := t, w := false }
  if s.renderActive then s else emitBus (vBus s.v) s

/-- Write to port 6, PPUADDR: the half the toggle selects (R317, R318). -/
def addrWrite (d : Byte) (s : State) : State :=
  if s.w then addrSecond d s else { s with t := addrHighIntoT s.t d, w := true }

/-- Write to port 6, PPUADDR (R317, R318). -/
def writeAddr (d : Byte) (s : State) : State := unlessWarming (addrWrite d) (latchByte d s)

/-- Write to port 7, PPUDATA (R322, R323). -/
def writeData (d : Byte) (s : State) : State :=
  let s := latchByte d s
  increment (if s.renderActive then s else ppuWrite (vBus s.v) d (emitBus (vBus s.v) s))

/-! ### DMA -/

/-- Whether a CPU address is in the window of ports 0 to 7 (R83). -/
def inPortWindow (a : CpuAddr) : Bool := decide (a &&& 0xE000 = 0x2000)

/-- The byte DMA reads at a CPU address: a port of the block, with its side effects, or CPU memory (R330). -/
def dmaRead (a : CpuAddr) (s : State) : Byte × State :=
  if inPortWindow a then portRead (a.setWidth 3) s else cpuRead a s

/-- One byte of the copy (R330). -/
def dmaByte (page : Byte) (s : State) (i : Nat) : State :=
  let (b, t) := dmaRead (page ++ BitVec.ofNat 8 i) s
  writeOamData b t

/-- The copy of 256 bytes, in one slot (R330, R101). -/
def dmaCopy (page : Byte) (s : State) : State := (List.range 256).foldl (dmaByte page) s

/-! ### The instructions -/

/-- End a port access begun in `before`: the NMI edge rule, and the reply (R372). -/
def portDone (before : State) (r : Reply) (after : State) : Host.Outcome State Fault Refusal :=
  .next (answer r (nmiEdge before after))

/-- End a port read begun in `before`. -/
def readDone (before : State) (r : Byte × State) : Host.Outcome State Fault Refusal :=
  portDone before (.byte r.1) r.2

/-- RD_CTRL (R301). -/
def execRdCtrl (s : State) : Host.Outcome State Fault Refusal := readDone s (readLatch s)

/-- RD_MASK (R301). -/
def execRdMask (s : State) : Host.Outcome State Fault Refusal := readDone s (readLatch s)

/-- RD_STATUS (R303, R304). -/
def execRdStatus (s : State) : Host.Outcome State Fault Refusal := readDone s (readStatus s)

/-- RD_OAMADDR (R301). -/
def execRdOamAddr (s : State) : Host.Outcome State Fault Refusal := readDone s (readLatch s)

/-- RD_OAMDATA (R314). -/
def execRdOamData (s : State) : Host.Outcome State Fault Refusal := readDone s (readOamData s)

/-- RD_SCROLL (R301). -/
def execRdScroll (s : State) : Host.Outcome State Fault Refusal := readDone s (readLatch s)

/-- RD_ADDR (R301). -/
def execRdAddr (s : State) : Host.Outcome State Fault Refusal := readDone s (readLatch s)

/-- RD_DATA (R320, R321, R323). -/
def execRdData (s : State) : Host.Outcome State Fault Refusal := readDone s (readData s)

/-- WR_CTRL (R306). -/
def execWrCtrl (d : Byte) (s : State) : Host.Outcome State Fault Refusal := portDone s .nothing (writeCtrl d s)

/-- WR_MASK (R307). -/
def execWrMask (d : Byte) (s : State) : Host.Outcome State Fault Refusal := portDone s .nothing (writeMask d s)

/-- WR_STATUS (R305). -/
def execWrStatus (d : Byte) (s : State) : Host.Outcome State Fault Refusal := portDone s .nothing (writeStatus d s)

/-- WR_OAMADDR (R312). -/
def execWrOamAddr (d : Byte) (s : State) : Host.Outcome State Fault Refusal := portDone s .nothing (writeOamAddr d s)

/-- WR_OAMDATA (R313). -/
def execWrOamData (d : Byte) (s : State) : Host.Outcome State Fault Refusal := portDone s .nothing (writeOamData d s)

/-- WR_SCROLL (R316). -/
def execWrScroll (d : Byte) (s : State) : Host.Outcome State Fault Refusal := portDone s .nothing (writeScroll d s)

/-- WR_ADDR (R317, R318). -/
def execWrAddr (d : Byte) (s : State) : Host.Outcome State Fault Refusal := portDone s .nothing (writeAddr d s)

/-- WR_DATA (R322, R323). -/
def execWrData (d : Byte) (s : State) : Host.Outcome State Fault Refusal := portDone s .nothing (writeData d s)

/-- WR_DMA, which returns the stall (R330, R331). -/
def execWrDma (d : Byte) (s : State) : Host.Outcome State Fault Refusal := portDone s (.stall dmaStall) (dmaCopy d s)

end Sys2Proof.Machine
end

