-- ==== Sys2Proof/Machine/Dispatch.lean ====
section
/-! DEFINITION. The dispatch: one arm per constructor of Instr. -/

namespace Sys2Proof.Machine

def exec (i : Instr) (s : State) : Host.Outcome State Fault Refusal :=
  match i with
  | .rdCtrl => Sys2Proof.Machine.execRdCtrl s
  | .rdMask => Sys2Proof.Machine.execRdMask s
  | .rdStatus => Sys2Proof.Machine.execRdStatus s
  | .rdOamAddr => Sys2Proof.Machine.execRdOamAddr s
  | .rdOamData => Sys2Proof.Machine.execRdOamData s
  | .rdScroll => Sys2Proof.Machine.execRdScroll s
  | .rdAddr => Sys2Proof.Machine.execRdAddr s
  | .rdData => Sys2Proof.Machine.execRdData s
  | .wrCtrl d => Sys2Proof.Machine.execWrCtrl d s
  | .wrMask d => Sys2Proof.Machine.execWrMask d s
  | .wrStatus d => Sys2Proof.Machine.execWrStatus d s
  | .wrOamAddr d => Sys2Proof.Machine.execWrOamAddr d s
  | .wrOamData d => Sys2Proof.Machine.execWrOamData d s
  | .wrScroll d => Sys2Proof.Machine.execWrScroll d s
  | .wrAddr d => Sys2Proof.Machine.execWrAddr d s
  | .wrData d => Sys2Proof.Machine.execWrData d s
  | .wrDma d => Sys2Proof.Machine.execWrDma d s
  | .set x src flags size contents => Sys2Proof.Machine.execSet x src flags size contents s
  | .swapBank x run start src banks => Sys2Proof.Machine.execSwapBank x run start src banks s
  | .peek x a => Sys2Proof.Machine.execPeek x a s
  | .poke x a d => Sys2Proof.Machine.execPoke x a d s
  | .installHook x p h => Sys2Proof.Machine.execInstallHook x p h s
  | .removeHook x p => Sys2Proof.Machine.execRemoveHook x p s
  | .setMirroring code => Sys2Proof.Machine.execSetMirroring code s
  | .construct cfg chr nmt => Sys2Proof.Machine.execConstruct cfg chr nmt s
  | .reset hard time => Sys2Proof.Machine.execReset hard time s
  | .update time => Sys2Proof.Machine.execUpdate time s
  | .beginFrame target => Sys2Proof.Machine.execBeginFrame target s
  | .endFrame => Sys2Proof.Machine.execEndFrame s
  | .ackNmi => Sys2Proof.Machine.execAckNmi s
  | .snapshot => Sys2Proof.Machine.execSnapshot s
  | .restore chunks => Sys2Proof.Machine.execRestore chunks s
  | .dotVblSet => Sys2Proof.Machine.execDotVblSet s
  | .dotVblClr => Sys2Proof.Machine.execDotVblClr s
  | .dotWarmCount => Sys2Proof.Machine.execDotWarmCount s
  | .dotPixel => Sys2Proof.Machine.execDotPixel s
  | .dotPixelOff => Sys2Proof.Machine.execDotPixelOff s
  | .dotShift => Sys2Proof.Machine.execDotShift s
  | .dotNt => Sys2Proof.Machine.execDotNt s
  | .dotAt => Sys2Proof.Machine.execDotAt s
  | .dotPtLo => Sys2Proof.Machine.execDotPtLo s
  | .dotPtHi => Sys2Proof.Machine.execDotPtHi s
  | .dotIncX => Sys2Proof.Machine.execDotIncX s
  | .dotIncY => Sys2Proof.Machine.execDotIncY s
  | .dotEval => Sys2Proof.Machine.execDotEval s
  | .dotHCopy => Sys2Proof.Machine.execDotHCopy s
  | .dotVCopy => Sys2Proof.Machine.execDotVCopy s
  | .dotOamZero => Sys2Proof.Machine.execDotOamZero s
  | .dotSprNt2 => Sys2Proof.Machine.execDotSprNt2 s
  | .dotSprNt4 => Sys2Proof.Machine.execDotSprNt4 s
  | .dotSprLo => Sys2Proof.Machine.execDotSprLo s
  | .dotSprHi => Sys2Proof.Machine.execDotSprHi s
  | .dotSprExtra => Sys2Proof.Machine.execDotSprExtra s
  | .dotDummyNt338 => Sys2Proof.Machine.execDotDummyNt338 s
  | .dotDummyNt340 => Sys2Proof.Machine.execDotDummyNt340 s
  | .dotSkip => Sys2Proof.Machine.execDotSkip s
  | .dotIdle => Sys2Proof.Machine.execDotIdle s

end Sys2Proof.Machine
end

