-- ==== Sys2Proof/Machine/Driver.lean ====
section
/-! DEFINITION. What a step performs (00_scope.md R4, 41_state_machine.md R172): the driver's oldest pending operation,
or, when the driver has none, the dot at the position. Log entries 1 and 2. -/

namespace Sys2Proof.Machine

/-- What a step performs next. -/
inductive Move where
  /-- An operation, in the state whose queue no longer holds it. -/
  | perform (i : Instr) (s : State)
  /-- A CPU access outside the block, which sees nothing of it (R120). -/
  | outside (s : State)
  /-- A request that is no well-formed call. -/
  | illFormed
  deriving DecidableEq, Repr

/-- The move of a state. With no request pending the driver runs the next dot: `Update(clock)` executes exactly one
(R137 `RUN 1`, R342). -/
def nextMove (s : State) : Move :=
  match s.inbox with
  | [] => .perform (.update s.clock) s
  | .access word d :: rest =>
    match decodeAccess word d with
    | .ok i => .perform i { s with inbox := rest }
    | .error _ => .outside { s with inbox := rest }
  | .call i :: rest =>
    if decide (i.format = .call) && WellFormed i then .perform i { s with inbox := rest } else .illFormed

/-- The line on which a dot row's micro-operation runs, of those its line class names. -/
def lineOfDotRow (std : Std) (i : Instr) : Nat :=
  match i with
  | .dotVblSet => std.vblFirst
  | .dotVblClr | .dotWarmCount | .dotVCopy | .dotSkip => std.pre
  | _ => 0

/-- A dot with the given dot value inside the fetch groups: a bare `dot mod 8` of 0 is dot 8. -/
def dotOfWord (w : BitVec 9) : BitVec 9 :=
  if w = 0 then 8 else w

/-- The sprite limit a dot row needs. -/
def limitForRow (i : Instr) (limit : SpriteLimit) : SpriteLimit :=
  if i = .dotSprExtra then .unlimited else limit

/-- The state whose next step runs the dot of a dot row: no request pending, rendering on, the position there. -/
def placeDot (i : Instr) (w : BitVec 9) (s : State) : State :=
  let limit := limitForRow i s.cfg.limit
  { s with
    inbox := []
    line := BitVec.ofNat 9 (lineOfDotRow s.cfg.std i), dot := dotOfWord w, mask := 0x18
    cfg := { s.cfg with limit }
    obuf := if limit = s.cfg.limit then s.obuf else List.replicate limit.slots none }

/-- The state in which the driver has one CPU access pending, with the access word and data byte of a table word. -/
def placeAccess (nbits w : Nat) (s : State) : State :=
  let v := w % 2 ^ nbits
  if v / 2 ^ 17 % 2 ^ 7 = 0 then
    { s with inbox := [.access (BitVec.ofNat 17 v) (BitVec.ofNat 8 (v / 2 ^ 24))] }
  else s

/-- Put the instruction of a table word where the next step takes it from (log entry 2). -/
def placeTableWord (nbits w : Nat) (s : State) : State :=
  if 16 < nbits then placeAccess nbits w s
  else
    let d := BitVec.ofNat 9 (w % 2 ^ nbits)
    match decodeDotWord d with
    | some i => placeDot i d s
    | none => s

end Sys2Proof.Machine
end

