-- ==== Sys2Proof/Machine/Step.lean ====
section
/-! DEFINITION. One step of the machine: one operation of R2, performed whole (00_scope.md R4, 20_memory.md R104). -/

namespace Sys2Proof.Machine

/-- One step: the move of the state, performed. -/
def step (s : State) : Host.Outcome State Fault Refusal :=
  match nextMove s with
  | .perform i t => exec i t
  | .outside t => .next t
  | .illFormed => .refused .illFormedRequest

/-- The state with a table word's instruction where the next step takes it from. -/
def State.withFetchWord (s : State) (nbits w : Nat) : State := placeTableWord nbits w s

end Sys2Proof.Machine
end

