-- ==== Sys2Proof/Safety.lean ====
section
/-! DEFINITION. The predicates claims use: the premises of 70_reset_and_hazards.md R408, the two launches of R407, and the
invariants of the state. -/

namespace Sys2Proof.Machine

/-! ### Premises (R408) -/

/-- `noRefusal(S)`: no call has been refused (R409). -/
def State.noRefusal (s : State) : Bool := !s.refused

/-- `warm(S)`: warm-up is over. -/
def State.warm (s : State) : Bool := decide (s.warmUp = 0)

/-- `quiet(S)`: rendering is off. -/
def State.quiet (s : State) : Bool := !s.renderOn

/-- `cleanEntry(S)`. -/
def State.cleanEntry (s : State) : Bool :=
  s.noRefusal && s.warm && s.quiet && !s.w && decide (s.ctrl = 0) && !s.nmiReq

/-! ### Launches (R407) -/

/-- The power-on launch: the state an instance is in right after its construction with the block's geometry. Its drawn
fields are free values; `State.reset` is the one with 0 in each of them (log entries 5 and 6). -/
def PowerOn (s : State) : Prop :=
  ∃ (cfg : Setup) (before : State), exec (.construct cfg chrGeometry nmtGeometry) before = .next s

/-- The restore launch: a construction, then a `Restore` that does not fail, which hands nothing back (R353). -/
def RestoreLaunch (s : State) : Prop :=
  ∃ (built : State) (chunks : List Chunk),
    PowerOn built ∧ exec (.restore chunks) built = .next s ∧ s.reply = .nothing

/-- A state a run starts from: no other start state is a launch. -/
def Launch (s : State) : Prop := PowerOn s ∨ RestoreLaunch s

/-! ### The invariants -/

/-- A source's bytes are in canonical form, its size is a power of two (R91), and it can be rebuilt exactly when it is
not writable (log entry 12). -/
def Source.wf (src : Source) : Bool := src.bytes.wf && isPow2 src.size && (src.rederivable == !src.writable)

/-- A substrate has an entry and a hook for each page, each bound to a source that exists, and its geometry is one R90
allows (R90, R92, R95). -/
def Substrate.wf (c : Substrate) : Bool :=
  isPow2 c.space && isPow2 c.page && decide (c.space % c.page = 0) &&
    decide (c.pt.length = c.npages) && decide (c.hooks.length = c.npages) &&
    c.pt.all (fun e => decide (e.src < c.nsrc)) && c.srcs.all Source.wf

/-- Primary OAM: canonical, 256 bytes, no attribute bits 4:2 (R48, R128). -/
def oamWf (m : Store 8) : Bool := m.wf && m.below 256 && m.cells.all fun c => decide (oamMask c.1 c.2 = c.2)

/-- The palette: canonical, 32 entries (R51). -/
def palWf (m : Store 6) : Bool := m.wf && m.below 32

/-- An output slot has eight pixel values (R50). -/
def slotWf (o : Option OutSlot) : Bool :=
  match o with
  | none => true
  | some o => decide (o.px.length = 8)

/-- The sprite buffers have their sizes (R49, R50). -/
def State.spritesWf (s : State) : Bool :=
  decide (s.sec.length ≤ s.cfg.limit.cap) && decide (s.obuf.length = s.cfg.limit.slots) && s.obuf.all slotWf

/-- Every memory is in canonical form, every page is bound to a source that exists, and every buffer has its size. -/
def State.wf (s : State) : Bool :=
  s.chr.wf && s.nmt.wf && oamWf s.oam && palWf s.pal && targetFits s.out && s.spritesWf && Cells.rising 0 s.cpu

/-- The position is a dot of a frame, the parity flag is the frame's, and warm-up and burst phase are in their ranges
(R32, R33, R35-R37). -/
def State.onSchedule (s : State) : Bool :=
  decide (s.line.toNat < s.cfg.std.lines) && decide (s.dot.toNat < s.cfg.std.dots) &&
    (s.odd == decide (s.frame % 2 = 1)) && decide (s.warmUp ≤ warmUpFrames) && decide (s.burstPhase.toNat < 3)

/-! ### Terms the statements are made of -/

/-- Coarse X, coarse Y, the name table select and fine Y of `v` or `t`, as numbers (R127). -/
def coarseX (v : VAddr) : Nat := v.toNat % 32
def coarseY (v : VAddr) : Nat := v.toNat / 32 % 32
def ntSelect (v : VAddr) : Nat := v.toNat / 1024 % 4
def fineRow (v : VAddr) : Nat := v.toNat / 4096

/-- The read and the write of a port by its number (R83, R120). -/
def readOfPort (p : BitVec 3) : Instr :=
  match p.toNat with
  | 0 => .rdCtrl
  | 1 => .rdMask
  | 2 => .rdStatus
  | 3 => .rdOamAddr
  | 4 => .rdOamData
  | 5 => .rdScroll
  | 6 => .rdAddr
  | _ => .rdData
def writeOfPort (p : BitVec 3) (d : Byte) : Instr :=
  match p.toNat with
  | 0 => .wrCtrl d
  | 1 => .wrMask d
  | 2 => .wrStatus d
  | 3 => .wrOamAddr d
  | 4 => .wrOamData d
  | 5 => .wrScroll d
  | 6 => .wrAddr d
  | _ => .wrData d

/-- Perform instructions one after another, stopping at the first that has no next state. -/
def performAll (l : List Instr) (s : State) : Host.Outcome State Fault Refusal :=
  match l with
  | [] => .next s
  | i :: rest =>
    match exec i s with
    | .next t => performAll rest t
    | .fault f => .fault f
    | .refused r => .refused r

/-- Which call reports which reason by a refusal (R371). `Construct` and `SetMirroring` switch banks, so each can report
`BadSwap` on a geometry without four 1 KB name tables (log entry 11). -/
def raises (i : Instr) (r : Reason) : Bool :=
  match i, r with
  | .construct _ _ _, .badGeometry | .construct _ _ _, .badSwap => true
  | .set _ _ _ _ _, .badSource => true
  | .swapBank _ _ _ _ _, .badSwap => true
  | .installHook _ _ _, .badPage | .removeHook _ _, .badPage => true
  | .setMirroring _, .badMirroring | .setMirroring _, .badSwap => true
  | _, _ => false

/-- Whether a DMA page lies in the window of ports 0 to 7, 0x2000 to 0x3FFF (R83, R330). -/
def pageOfPorts (d : Byte) : Bool := decide (0x20 ≤ d.toNat) && decide (d.toNat ≤ 0x3F)

/-- Whether an operation can move the bus (R377); the calls that assign `lastBus` and `trace` outright are among them. -/
def mayMoveBus (i : Instr) (s : State) : Bool :=
  match i with
  | .dotNt | .dotAt | .dotPtLo | .dotPtHi | .dotDummyNt338 | .dotDummyNt340 | .dotSprNt2 | .dotSprNt4 | .dotSprLo
  | .dotSprHi => true
  | .wrAddr _ => s.w && !s.warming && !s.renderActive
  | .rdData | .wrData _ => !s.renderActive
  | .wrDma d => pageOfPorts d && !s.renderActive
  | .reset _ _ | .construct _ _ _ | .restore _ => true
  | .update _ => s.renderOn
  | _ => false

/-- The state after an address is put on the bus (R376), with the draw counter at `n`. -/
def driven (a : BusAddr) (n : Nat) (s : State) : State :=
  { s with
    lastBus := a, draws := n
    trace := s.trace ++ [{ clock := s.clock, addr := a, rise := !s.lastBus.getLsbD 12 && a.getLsbD 12 }] }

/-- A substrate address whose page has no hook and whose source is readable. -/
def Substrate.plainAt (c : Substrate) (a : Nat) : Bool :=
  (c.hook (c.resolve a).1).isNone && (c.source (c.resolve a).2.1).readable

/-- A sprite's pattern address in numbers: an entry on a line, or an empty slot (R249, R251). The row of an entry whose Y
exceeds the line is the model's choice (log entry 30). -/
def sprRowAddr (ctrl : Byte) (e : Option SprEntry) (line : Nat) : Nat :=
  let height := if ctrl.getLsbD 5 then 16 else 8
  let tile :=
    match e with
    | some f => f.tile.toNat
    | none => 0xFF
  let row :=
    match e with
    | some f =>
      let r := (line + 512 - f.y.toNat) % height
      if f.attr.getLsbD 7 then height - 1 - r else r
    | none => 0
  if ctrl.getLsbD 5 then 0x1000 * (tile % 2) + 16 * (tile / 2 * 2 + row / 8) + row % 8
  else (if ctrl.getLsbD 3 then 0x1000 else 0) + 16 * tile + row

/-- The OAM entries in range on a line, in increasing order: those whose Y byte y has `0 ≤ line - y < height` (R243). -/
def entriesInRange (s : State) : List Nat :=
  (List.range 64).filter fun n =>
    decide ((s.oamByte (4 * n)).toNat ≤ s.line.toNat) &&
      decide (s.line.toNat < (s.oamByte (4 * n)).toNat + (if s.ctrl.getLsbD 5 then 16 else 8))

/-- The pixel value of a slot's sprite at a column, if the slot holds one there that is not transparent (R283). -/
def slotShows (o : Option OutSlot) (c : Nat) : Bool :=
  match o with
  | some p => decide (p.x.toNat ≤ c) && decide (c < p.x.toNat + 8) && decide (p.px.getD (c - p.x.toNat) 0 ≠ 0)
  | none => false

/-- The dots of the frame a state at (0, 0) begins, if no access comes between: the odd-frame skip is taken when its
three conditions hold (R178, R179). -/
def frameDots (s : State) : Nat :=
  if s.cfg.std.oddSkip && s.odd && s.renderOn then s.cfg.std.frameShort else s.cfg.std.frameLong

/-- Two states of one shape: the same parameters, and substrates of the same geometry and number of sources, so that a
snapshot of one can be restored into the other (R354). -/
def SameShape (s t : State) : Prop :=
  s.cfg = t.cfg ∧ ∀ x, (s.sub x).space = (t.sub x).space ∧ (s.sub x).page = (t.sub x).page ∧
    (s.sub x).pt.length = (t.sub x).pt.length ∧ (s.sub x).nsrc = (t.sub x).nsrc

end Sys2Proof.Machine
end

