-- ==== Sys2Proof/Certificates/Slice0/Obligations.lean ====
section
/-! DEFINITION. The statements: what the numbered rules of spec/ say the operations and the machine do. Where a statement
rests on a choice of the model, its docstring names the log entry. -/

open Sys2Proof Sys2Proof.Machine

/-! ### Encoding -/

/-- R120, R132: words written out from the port decode and positions written out from the dot schedule. -/
def Obligations.WordsWrittenOutDecode : Prop :=
  decodeAccess 0x12002 0x00 = .ok .rdStatus ∧ decodeAccess 0x13FFA 0x00 = .ok .rdStatus ∧
  decodeAccess 0x02006 0x3D = .ok (.wrAddr 0x3D) ∧ decodeAccess 0x04014 0x02 = .ok (.wrDma 0x02) ∧
  decodeAccess 0x14014 0x00 = .error .outsideBlock ∧ decodeAccess 0x04000 0x00 = .error .outsideBlock ∧
  schedule State.reset.cfg 12 256 true = [.dotPixel, .dotShift, .dotPtHi, .dotIncX, .dotIncY, .dotEval] ∧
  schedule State.reset.cfg 261 1 false = [.dotVblClr, .dotWarmCount] ∧
  schedule State.reset.cfg 12 264 true = [.dotOamZero, .dotSprHi] ∧
  schedule State.reset.cfg 240 7 true = [.dotIdle]

/-- R120, R83: a word selects a port by bits 16, 15:13 and 2:0 alone, so that each port repeats every 8 bytes; the write
of 0x4014 is DMA; no other word reaches the block. -/
def Obligations.AccessWordSelectsItsPort : Prop :=
  ∀ (word : AccessWord) (d : Byte),
    (word &&& 0x0E000 = 0x02000 → decodeAccess word d =
      .ok (if word.getLsbD 16 then readOfPort (word.setWidth 3) else writeOfPort (word.setWidth 3) d)) ∧
    (word = 0x04014 → decodeAccess word d = .ok (.wrDma d)) ∧
    (word &&& 0x0E000 ≠ 0x02000 → word ≠ 0x04014 → decodeAccess word d = .error .outsideBlock)

/-- R120, R139: every port access decodes from its encoding, whatever follows it; what decodes is a port access whose
bytes are its encoding but for the ignored bits 12:3 of the address; calls and micro-operations have no encoding. The
layout as bytes is the model's (log entry 2). -/
def Obligations.DecodeAndEncodeAgree : Prop :=
  (∀ i : Instr, (encode i).isSome = true ↔ i.format = .port) ∧
  (∀ (i : Instr) (bytes rest : List Byte), encode i = some bytes → decode (bytes ++ rest) = .ok (i, rest)) ∧
  (∀ (i : Instr) (bytes rest : List Byte), decode bytes = .ok (i, rest) →
    ∃ (word word' : AccessWord) (data : Option Byte), accessOf i = some (word, data) ∧
      bytes = bytesOfWord word' ++ data.toList ++ rest ∧ word' &&& 0x1E007 = word &&& 0x1E007)

/-! ### Steps -/

/-- R4, R172, log entries 1, 20 and 21: a step performs the driver's oldest operation. An access that decodes runs its
instruction, one outside the block changes nothing but the queue, a well-formed call runs, anything else is refused by
name; with nothing pending the next dot runs. -/
def Obligations.StepRunsTheDecodedInstruction : Prop :=
  ∀ (s : State) (rest : List Request),
    (∀ word d i, s.inbox = .access word d :: rest → decodeAccess word d = .ok i →
      step s = exec i { s with inbox := rest }) ∧
    (∀ word d e, s.inbox = .access word d :: rest → decodeAccess word d = .error e →
      step s = .next { s with inbox := rest }) ∧
    (∀ i, s.inbox = .call i :: rest → i.format = .call → WellFormed i = true →
      step s = exec i { s with inbox := rest }) ∧
    (∀ i, s.inbox = .call i :: rest → ¬(i.format = .call ∧ WellFormed i = true) →
      step s = .refused .illFormedRequest) ∧
    (s.inbox = [] → step s = .next { dotStep s with reply := .nothing })

/-- R171, R176, R132: the micro-operations the opcode map selects at a position, performed in the table's order, are the
dot step's; the dot step then advances the position (at (PRE, 339) the skip test already has), adds the dot's length to
the clock and applies the NMI edge rule. -/
def Obligations.DotStepPerformsItsSchedule : Prop :=
  ∀ s : State, ∃ t, performAll (schedule s.cfg s.line s.dot s.renderOn) s = .next t ∧
    dotStep s = nmiEdge s (tick (if s.line.toNat = s.cfg.std.pre ∧ s.dot.toNat = 339 then t else advance t))

/-! ### Reset and the invariants -/

/-- R60, R400, R344: the values the spec gives the state after power-on. The fields it leaves to a draw are not named
here (log entries 5 and 6). -/
def Obligations.ResetStateHoldsTheGivenValues : Prop :=
  let s := State.reset
  s.line = 0 ∧ s.dot = 0 ∧ s.clock = 0 ∧ s.frame = 0 ∧ s.odd = false ∧ s.warmUp = 2 ∧ s.vblSuppress = false ∧
  s.burstPhase = 0 ∧ s.ctrl = 0x00 ∧ s.mask = 0x00 ∧ s.s0hit = false ∧ s.latch = 0x00 ∧ s.oamAddr = 0x00 ∧ s.v = 0 ∧
  s.t = 0 ∧ s.x = 0 ∧ s.w = false ∧ s.readBuf = 0x00 ∧ s.nmiReq = false ∧ s.sec = [] ∧
  s.obuf = List.replicate 8 none ∧ s.lastBus = 0 ∧ s.trace = [] ∧ s.mirror = .horizontal ∧
  s.nmt.pt = [⟨0, 0⟩, ⟨0, 0⟩, ⟨0, 1024⟩, ⟨0, 1024⟩] ∧ s.chr.hooks = List.replicate 8 none ∧
  s.nmt.hooks = List.replicate 4 none

/-- The two invariants hold at reset. -/
def Obligations.ResetStateMeetsTheInvariants : Prop :=
  State.reset.wf = true ∧ State.reset.onSchedule = true

/-- Every step keeps every memory in its canonical form, every page bound to a source that exists, every source's size a
power of two, OAM without the bits that do not exist, and every buffer at its size. -/
def Obligations.StepKeepsTheStateWellFormed : Prop :=
  ∀ s t : State, s.wf = true → step s = .next t → t.wf = true

/-- R32, R33, R35-R37: every instruction but `Restore`, which loads a position, keeps the position a dot of the frame, the
parity flag the frame's, and warm-up and burst phase in range. -/
def Obligations.InstructionsKeepTheSchedule : Prop :=
  ∀ (i : Instr) (s t : State), (∀ chunks, i ≠ .restore chunks) → s.onSchedule = true → exec i s = .next t →
    t.onSchedule = true

/-! ### The whole machine -/

/-- R370, R371, R57: the refusal mark is never cleared, and is set only by a call that reports one of its own reasons and
changes nothing else. `CorruptState` is no refusal. -/
def Obligations.RefusalMarksAndChangesNothingElse : Prop :=
  ∀ (i : Instr) (s t : State), exec i s = .next t →
    t.refused = s.refused ∨ ∃ r, raises i r = true ∧ t = { s with refused := true, reply := .reason r }

/-- R33, R332: no port access moves the position, the clock or the frame count, touches the fetch pipeline, the sprite
unit, the output buffer, the mirroring mode, the hooks or the page tables, or marks a refusal. -/
def Obligations.PortAccessLeavesTheDotEngineAlone : Prop :=
  ∀ (i : Instr) (s t : State), i.format = .port → exec i s = .next t →
    t = { s with
      latch := t.latch, ctrl := t.ctrl, mask := t.mask, vbl := t.vbl, vblSuppress := t.vblSuppress, nmiReq := t.nmiReq
      oamAddr := t.oamAddr, oam := t.oam, v := t.v, t := t.t, x := t.x, w := t.w, readBuf := t.readBuf
      pal := t.pal, chr := t.chr, nmt := t.nmt, lastBus := t.lastBus, trace := t.trace, draws := t.draws
      reply := t.reply } ∧
    (∀ x, t.sub x = { s.sub x with srcs := (t.sub x).srcs })

/-- R377, R187, R323: nothing but the fetches, and the idle accesses of ports 6 and 7, puts an address on the bus. -/
def Obligations.NothingElseMovesTheBus : Prop :=
  ∀ (i : Instr) (s t : State), exec i s = .next t → mayMoveBus i s = false →
    t.trace = s.trace ∧ t.lastBus = s.lastBus

/-- R372: the request rises exactly on a rising `nmiLine`, after every dot step and every port access; no falling edge
clears it, and of the port accesses only one in the cancel slots can; no other call but those that assign it moves
`vbl`, `ctrl` or the request. -/
def Obligations.NmiRequestFollowsTheEdge : Prop :=
  (∀ s : State, (dotStep s).nmiReq = (s.nmiReq || (!s.nmiLine && (dotStep s).nmiLine))) ∧
  (∀ (i : Instr) (s t : State), i.format = .port → exec i s = .next t →
    (s.nmiLine = false → t.nmiLine = true → t.nmiReq = true) ∧
    (t.nmiReq = true → s.nmiReq = true ∨ (s.nmiLine = false ∧ t.nmiLine = true)) ∧
    (s.nmiReq = true → t.nmiReq = true ∨ (s.line.toNat = s.cfg.std.vblFirst ∧ 2 ≤ s.dot.toNat ∧ s.dot.toNat ≤ 3))) ∧
  (∀ (i : Instr) (s t : State), i.format = .call → exec i s = .next t →
    (∀ time, i ≠ .update time) → (∀ hard time, i ≠ .reset hard time) → (∀ cfg chr nmt, i ≠ .construct cfg chr nmt) →
    (∀ chunks, i ≠ .restore chunks) →
    t.vbl = s.vbl ∧ t.ctrl = s.ctrl ∧ (i ≠ .ackNmi → t.nmiReq = s.nmiReq))

/-- R181, R304: a status read in the slot before the vblank-set dot returns 0 for the flag, and from then on, until a
whole frame of dots has passed, the flag is not set and no request is made. -/
def Obligations.VblankRaceLosesTheFrame : Prop :=
  ∀ s : State, s.onSchedule = true → s.line.toNat = s.cfg.std.vblFirst → s.dot.toNat = 1 →
    ∃ (t : State) (r : Byte), exec .rdStatus s = .next t ∧ t.reply = .byte r ∧ r.getLsbD 7 = false ∧
      ∀ n ≤ s.cfg.std.frameShort, (runDots n t).vbl = false ∧ (runDots n t).nmiReq = s.nmiReq

/-- R177, R178, R348, R34: where a dot leaves the position, the frame count, the parity flag, the burst phase and the
clock. -/
def Obligations.DotAdvancesThePosition : Prop :=
  ∀ s : State, s.onSchedule = true →
    let t := dotStep s
    let skip := s.line.toNat = s.cfg.std.pre ∧ s.dot.toNat = 339 ∧ s.cfg.std.oddSkip = true ∧ s.odd = true ∧
      s.renderOn = true
    let wrap := skip ∨ (s.line.toNat = s.cfg.std.pre ∧ s.dot.toNat = 340)
    t.clock = s.clock + s.cfg.std.dotMaster ∧
    (¬wrap → s.dot.toNat < 340 →
      t.line = s.line ∧ t.dot.toNat = s.dot.toNat + 1 ∧ t.frame = s.frame ∧ t.odd = s.odd ∧ t.burstPhase = s.burstPhase) ∧
    (¬wrap → s.dot.toNat = 340 →
      t.line.toNat = s.line.toNat + 1 ∧ t.dot = 0 ∧ t.frame = s.frame ∧ t.odd = s.odd ∧ t.burstPhase = s.burstPhase) ∧
    (wrap → t.line = 0 ∧ t.dot = 0 ∧ t.frame = s.frame + 1 ∧ t.odd = decide ((s.frame + 1) % 2 = 1)) ∧
    (wrap → s.cfg.std = .pal → t.burstPhase = 0) ∧
    (wrap → s.cfg.std = .ntsc → (skip → t.burstPhase.toNat = (s.burstPhase.toNat + 2) % 3) ∧
      (¬skip → t.burstPhase.toNat = (s.burstPhase.toNat + 1) % 3))

/-- R179: with no access in between, a frame takes FRAME_LONG dots, or FRAME_SHORT when its skip is taken. -/
def Obligations.FrameTakesItsDots : Prop :=
  ∀ s : State, s.onSchedule = true → s.line = 0 → s.dot = 0 →
    let t := runDots (frameDots s) s
    t.line = 0 ∧ t.dot = 0 ∧ t.frame = s.frame + 1 ∧ t.clock = s.clock + frameDots s * s.cfg.std.dotMaster ∧
    ∀ n < frameDots s, (runDots n s).frame = s.frame

/-- R183, R187, R189: any number of dots at each of which `renderActive` is false (rendering off, or a post-render or
vblank line whatever the mask holds) fetches nothing, shifts nothing, moves no `v` and no OAMADDR, evaluates no sprites,
and sets neither sprite flag; with rendering off every dot is such a dot. -/
def Obligations.DotsWithRenderingOffAreIdle : Prop :=
  ∀ (n : Nat) (s : State),
    ((∀ m < n, (runDots m s).renderActive = false) →
      let t := runDots n s
      t = { s with
        line := t.line, dot := t.dot, clock := t.clock, frame := t.frame, odd := t.odd, burstPhase := t.burstPhase
        warmUp := t.warmUp, vblSuppress := t.vblSuppress, vbl := t.vbl, s0hit := t.s0hit, ovf := t.ovf
        nmiReq := t.nmiReq, out := t.out } ∧
      (s.s0hit = false → t.s0hit = false) ∧ (s.ovf = false → t.ovf = false)) ∧
    (s.renderOn = false → (runDots n s).renderActive = false)

/-- R184, R186: from a reset's state (rendering off, the first dot of an even frame, warm-up at 2) warm-up lasts for the
dots up to the second flag clear, and ends with it. -/
def Obligations.WarmUpEndsAtTheSecondFlagClear : Prop :=
  ∀ s : State, s.onSchedule = true → s.line = 0 → s.dot = 0 → s.renderOn = false → s.warmUp = 2 →
    let n := s.cfg.std.pre * s.cfg.std.dots + 1 + s.cfg.std.frameLong
    (∀ m ≤ n, (runDots m s).warming = true) ∧ (runDots (n + 1) s).warmUp = 0

/-- R174: two updates are one. -/
def Obligations.UpdatesCompose : Prop :=
  ∀ (first second : Nat) (s : State), first ≤ second →
    ∃ t, exec (.update first) s = .next t ∧ exec (.update second) t = exec (.update second) s

/-- R342: `Update(T)` runs dots, one after another, for as long as the next one starts by `T`. -/
def Obligations.UpdateRunsEveryDotThatStartsInTime : Prop :=
  ∀ (time : Nat) (s : State), ∃ n, exec (.update time) s = .next { runDots n s with reply := .nothing } ∧
    time < (runDots n s).clock ∧ ∀ m < n, (runDots m s).clock ≤ time

/-- R287, R376: neither the output buffer nor the trace is read by a dot: with any other buffer, bound or not, and any
other history, the same dots give the same state and the same new bus events. -/
def Obligations.DotsDoNotReadTheirOutputs : Prop :=
  ∀ (time : Nat) (s : State), ∃ (t : State) (events : List BusEvent), exec (.update time) s = .next t ∧
    t.trace = s.trace ++ events ∧
    ∀ (out : Store 9) (bound : Bool) (trace : List BusEvent), ∃ out',
      exec (.update time) { s with out := out, outBound := bound, trace := trace } =
        .next { t with out := out', outBound := bound, trace := trace ++ events }

/-! ### Memory -/

/-- R82, R85, R86: the map of the PPU bus, for reads and writes. -/
def Obligations.BusAddressesReachTheirMemory : Prop :=
  ∀ (a : BusAddr) (d : Byte) (s : State),
    (a.toNat < 0x2000 → ppuRead a s = peekSub .chr a.toNat s ∧ ppuWrite a d s = pokeSub .chr a.toNat d s) ∧
    (0x2000 ≤ a.toNat → a.toNat < 0x3000 →
      ppuRead a s = peekSub .nmt (a.toNat - 0x2000) s ∧ ppuWrite a d s = pokeSub .nmt (a.toNat - 0x2000) d s) ∧
    (0x3000 ≤ a.toNat → a.toNat < 0x3F00 →
      ppuRead a s = peekSub .nmt (a.toNat - 0x3000) s ∧ ppuWrite a d s = pokeSub .nmt (a.toNat - 0x3000) d s) ∧
    (0x3F00 ≤ a.toNat →
      ∃ c : Colour, ppuRead a s = (c.setWidth 8, s) ∧
        c = s.pal.read (if a.toNat % 32 ∈ [0x10, 0x14, 0x18, 0x1C] then a.toNat % 32 - 0x10 else a.toNat % 32))

/-- R88, R89, R86: a palette write is seen at every mirror of its entry, the sprite half's background slots being the
background half's, six bits wide, and at no other entry. -/
def Obligations.PaletteWriteIsSeenAtItsMirrors : Prop :=
  ∀ (a b : BusAddr) (d : Byte) (s : State), palWf s.pal = true → 0x3F00 ≤ a.toNat → 0x3F00 ≤ b.toNat →
    let entry := fun c : BusAddr =>
      if c.toNat % 32 ∈ [0x10, 0x14, 0x18, 0x1C] then c.toNat % 32 - 0x10 else c.toNat % 32
    (ppuRead b (ppuWrite a d s)).1 = if entry a = entry b then d &&& 0x3F else (ppuRead b s).1

/-- R87: no fetch of the dot engine reaches the palette: name table fetches are in 0x2000-0x2FFF and pattern fetches
below 0x2000. -/
def Obligations.FetchesNeverReachThePalette : Prop :=
  ∀ s t : State,
    (∀ i ∈ [Instr.dotNt, .dotAt, .dotDummyNt338, .dotDummyNt340, .dotSprNt2, .dotSprNt4], exec i s = .next t →
      0x2000 ≤ t.lastBus.toNat ∧ t.lastBus.toNat < 0x3000) ∧
    (∀ i ∈ [Instr.dotPtLo, .dotPtHi, .dotSprLo, .dotSprHi], exec i s = .next t → t.lastBus.toNat < 0x2000)

/-! ### The substrate -/

/-- R154, R93, R92: an unhooked page of a readable source gives the byte its entry's offset and the source's mask pick; a
hooked page or an unreadable source gives some byte (a free value, log entries 4 and 16); nothing else changes. -/
def Obligations.PeekReadsTheBoundByte : Prop :=
  ∀ (x : Sub) (a : Nat) (s : State) (e : PageEntry), (s.sub x).wf = true →
    let c := s.sub x
    c.pt[a % c.space / c.page]? = some e →
    (c.hooks[a % c.space / c.page]? = some none → (c.source e.src).readable = true →
      exec (.peek x a) s =
        .next { s with reply := .byte ((c.source e.src).bytes.read ((e.off + a % c.page) % (c.source e.src).size)) }) ∧
    (∃ b n, exec (.peek x a) s = .next { s with reply := .byte b, draws := n })

/-- R155, R98: a `Poke` stores its byte where the address resolves, if that source is writable; every other byte of every
source, and everything else of the substrate and the state, is unchanged. -/
def Obligations.PokeStoresOneByte : Prop :=
  ∀ (x : Sub) (a : Nat) (d : Byte) (s : State), (s.sub x).wf = true →
    let c := s.sub x
    ∃ c' : Substrate, exec (.poke x a d) s = .next { s.setSub x c' with reply := .nothing } ∧
      c' = { c with srcs := c'.srcs } ∧ c'.srcs.length = c.srcs.length ∧
      (∀ i, c'.source i = { c.source i with bytes := (c'.source i).bytes }) ∧
      ∀ i k, (c'.source i).bytes.read k =
        if (i, k) = (c.resolve a).2 ∧ (c.source i).writable = true then d else (c.source i).bytes.read k

/-- R150: `Set` gives the source its size, flags and contents, or the contents it is given; the page table, the hooks and
the other sources stay. A source that does not exist or a size that is no power of two is refused. -/
def Obligations.SetBindsASource : Prop :=
  ∀ (x : Sub) (src : Nat) (flags : Option (Bool × Bool)) (size : Nat) (contents : Option (List Byte)) (s : State),
    let c := s.sub x
    (src < c.nsrc ∧ (∃ k, size = 2 ^ k) →
      ∃ (c' : Substrate) (n : Nat),
        exec (.set x src flags size contents) s = .next { s.setSub x c' with reply := .nothing, draws := n } ∧
        c' = { c with srcs := c'.srcs } ∧ c'.srcs.length = c.srcs.length ∧
        (∀ j, j ≠ src → c'.source j = c.source j) ∧ (c'.source src).size = size ∧
        ((c'.source src).readable, (c'.source src).writable) =
          flags.getD ((c.source src).readable, (c.source src).writable) ∧
        ∀ bytes, contents = some bytes → ∀ k (h : k < bytes.length), (c'.source src).bytes.read k = bytes[k]) ∧
    (¬(src < c.nsrc ∧ ∃ k, size = 2 ^ k) →
      exec (.set x src flags size contents) s = .next { s with refused := true, reply := .reason .badSource })

/-- R151, R152: within its preconditions a swap binds each page of each run to its bank's offset, through the source's
mask, and leaves every other page; outside them it is refused. -/
def Obligations.SwapBankRebindsItsRuns : Prop :=
  ∀ (x : Sub) (run start src : Nat) (banks : List Nat) (s : State), (s.sub x).wf = true →
    let c := s.sub x
    let ok := (∃ k, run = 2 ^ k) ∧ c.page ≤ run ∧ start % c.page = 0 ∧ start + banks.length * run ≤ c.space ∧
      src < c.nsrc ∧ 1 ≤ banks.length
    (ok → ∃ pt, exec (.swapBank x run start src banks) s = .next { s.setSub x { c with pt } with reply := .nothing } ∧
      pt.length = c.pt.length ∧
      (∀ i j (h : i < banks.length), j < run / c.page →
        pt[start / c.page + i * (run / c.page) + j]? =
          some ⟨src, (banks[i] * run + j * c.page) % (c.source src).size⟩) ∧
      ∀ q, q < start / c.page ∨ start / c.page + banks.length * (run / c.page) ≤ q → pt[q]? = c.pt[q]?) ∧
    (¬ok → exec (.swapBank x run start src banks) s = .next { s with refused := true, reply := .reason .badSwap })

/-- R160: for all valid parameters, a swap followed by a peek at any address within the swapped range gives the source's
byte at the masked offset, on a readable source and an unhooked page. -/
def Obligations.SwapThenPeekIndexesTheSource : Prop :=
  ∀ (x : Sub) (run start src : Nat) (banks : List Nat) (s : State) (i o : Nat) (h : i < banks.length),
    (s.sub x).wf = true → (s.sub x).swapOk run start src banks = true → o < run →
    ((s.sub x).source src).readable = true →
    (s.sub x).hooks[(start + i * run + o) / (s.sub x).page]? = some none →
    ∃ t, exec (.swapBank x run start src banks) s = .next t ∧
      exec (.peek x (start + i * run + o)) t = .next { t with
        reply := .byte (((s.sub x).source src).bytes.read
          ((banks[i] * run + o) % ((s.sub x).source src).size)) }

/-- R157: a hook is installed on, or removed from, exactly its page; a page that does not exist is refused. -/
def Obligations.HooksAreSetPerPage : Prop :=
  ∀ (x : Sub) (p h : Nat) (s : State), (s.sub x).wf = true →
    let c := s.sub x
    (p < c.npages →
      (∃ hooks, exec (.installHook x p h) s = .next { s.setSub x { c with hooks } with reply := .nothing } ∧
        ∀ q, hooks[q]? = if q = p then some (some h) else c.hooks[q]?) ∧
      (∃ hooks, exec (.removeHook x p) s = .next { s.setSub x { c with hooks } with reply := .nothing } ∧
        ∀ q, hooks[q]? = if q = p then some none else c.hooks[q]?)) ∧
    (c.npages ≤ p →
      exec (.installHook x p h) s = .next { s with refused := true, reply := .reason .badPage } ∧
      exec (.removeHook x p) s = .next { s with refused := true, reply := .reason .badPage })

/-- R158, R159: each fixed mode binds the four 1 KB name tables to its CIRAM banks and is recorded; the mapper-controlled
mode is recorded alone; any other mode is refused. The codes of the modes are the model's (log entry 17); the geometry
is the block's (R13). -/
def Obligations.MirroringBindsTheNameTables : Prop :=
  ∀ s : State, s.nmt.wf = true → s.nmt.space = 4096 → s.nmt.page = 1024 →
    let offset := fun bank : Nat => bank * 1024 % (s.nmt.source 0).size
    let bound := fun (m : Mirror) (banks : List Nat) =>
      { s with nmt := { s.nmt with pt := banks.map fun b => ⟨0, offset b⟩ }, mirror := m, reply := .nothing }
    exec (.setMirroring 0) s = .next (bound .horizontal [0, 0, 1, 1]) ∧
    exec (.setMirroring 1) s = .next (bound .vertical [0, 1, 0, 1]) ∧
    exec (.setMirroring 2) s = .next (bound .single0 [0, 0, 0, 0]) ∧
    exec (.setMirroring 3) s = .next (bound .single1 [1, 1, 1, 1]) ∧
    exec (.setMirroring 4) s = .next { s with mirror := .controlled, reply := .nothing } ∧
    ∀ code > 4, exec (.setMirroring code) s = .next { s with refused := true, reply := .reason .badMirroring }

/-! ### Port accesses -/

/-- R301, R305, R312: a read of ports 0, 1, 3, 5 and 6 returns the latch and changes nothing; a write to port 2 sets the
latch alone, a write to port 3 the latch and the OAM address. -/
def Obligations.LatchPortsReadBackTheLastByte : Prop :=
  ∀ (s : State) (d : Byte),
    (∀ i ∈ [Instr.rdCtrl, .rdMask, .rdOamAddr, .rdScroll, .rdAddr], exec i s = .next { s with reply := .byte s.latch }) ∧
    exec (.wrStatus d) s = .next { s with latch := d, reply := .nothing } ∧
    exec (.wrOamAddr d) s = .next { s with latch := d, oamAddr := d, reply := .nothing }

/-- R303, R304: the status byte is the three flags over the latch's low bits; reading it clears the vblank flag and the
write toggle. In the slot before the vblank-set dot it reads 0 and suppresses the flag; in the next two slots it may
cancel the request; while the line's evaluation is still to set the overflow flag, the flag may read 1 early. The two
`may`s are free values (log entries 4 and 23). -/
def Obligations.StatusReadClearsVblankAndToggle : Prop :=
  ∀ s : State, ∃ (keep early : Bool) (n : Nat) (r : Byte),
    let race := s.line.toNat = s.cfg.std.vblFirst ∧ s.dot.toNat = 1
    let cancel := s.line.toNat = s.cfg.std.vblFirst ∧ 2 ≤ s.dot.toNat ∧ s.dot.toNat ≤ 3
    let pending := s.onVisibleLine = true ∧ s.renderOn = true ∧ 66 ≤ s.dot.toNat ∧ s.dot.toNat ≤ 256 ∧
      ∃ u, exec .dotEval { s with ovf := false } = .next u ∧ u.ovf = true
    exec .rdStatus s = .next { s with
      vbl := false, w := false, latch := r, reply := .byte r, draws := n
      vblSuppress := s.vblSuppress || decide race, nmiReq := s.nmiReq && (keep || !decide cancel) } ∧
    (race → r.getLsbD 7 = false) ∧ (¬race → r.getLsbD 7 = s.vbl) ∧ r.getLsbD 6 = s.s0hit ∧
    (¬pending → r.getLsbD 5 = s.ovf) ∧ (pending → r.getLsbD 5 = (s.ovf || early)) ∧
    ∀ k < 5, r.getLsbD k = s.latch.getLsbD k

/-- R185: during warm-up a write to port 0, 1, 5 or 6 stores its byte in the latch and changes nothing else. -/
def Obligations.WarmUpFiltersFourPorts : Prop :=
  ∀ (s : State) (d : Byte), 0 < s.warmUp →
    ∀ i ∈ [Instr.wrCtrl d, .wrMask d, .wrScroll d, .wrAddr d], exec i s = .next { s with latch := d, reply := .nothing }

/-- R306, R307, R372: after warm-up a write to port 0 sets `ctrl` and the name table bits of `t`, and raises the request
when it raises `nmiLine`; a write to port 1 sets `mask`. -/
def Obligations.ControlAndMaskWrites : Prop :=
  ∀ (s : State) (d : Byte), s.warmUp = 0 →
    (∃ t' : VAddr, exec (.wrCtrl d) s = .next { s with
        latch := d, ctrl := d, t := t', reply := .nothing
        nmiReq := s.nmiReq || (s.vbl && d.getLsbD 7 && !s.ctrl.getLsbD 7) } ∧
      ∀ k, t'.getLsbD k = if k = 10 then d.getLsbD 0 else if k = 11 then d.getLsbD 1 else s.t.getLsbD k) ∧
    exec (.wrMask d) s = .next { s with latch := d, mask := d, reply := .nothing }

/-- R313, R314: a write to port 4 outside rendering stores its byte at the OAM address, an attribute byte without bits
4:2, and moves the address by one; during rendering it stores nothing and moves the address by four; every other OAM byte
stays. A read outside rendering returns the byte at the OAM address, which does not move; during rendering it returns some
byte (a free value, log entry 4). The mask is that of R313's pseudocode, where its worked example and vector T126 leave it
out: log entry 32. -/
def Obligations.OamDataPort : Prop :=
  ∀ (s : State) (d : Byte), oamWf s.oam = true →
    (∃ (m : Store 8) (p : Byte),
      exec (.wrOamData d) s = .next { s with latch := d, oam := m, oamAddr := p, reply := .nothing } ∧
      p.toNat = (s.oamAddr.toNat + (if s.renderActive then 4 else 1)) % 256 ∧
      ∀ a, State.oamByte { s with oam := m } a =
        if s.renderActive = false ∧ a = s.oamAddr.toNat then (if a % 4 = 2 then d &&& 0xE3 else d)
        else s.oamByte a) ∧
    (s.renderActive = false →
      exec .rdOamData s = .next { s with
        latch := s.oamByte s.oamAddr.toNat, reply := .byte (s.oamByte s.oamAddr.toNat) }) ∧
    (s.renderActive = true → ∃ b n, exec .rdOamData s = .next { s with latch := b, reply := .byte b, draws := n })

/-- R316: the first write to port 5 sets coarse X in `t` and fine X, the second coarse Y and fine Y in `t`; the toggle
flips. -/
def Obligations.ScrollWritesFillHalves : Prop :=
  ∀ (s : State) (d : Byte), s.warmUp = 0 →
    (s.w = false → ∃ (t' : VAddr) (x' : BitVec 3),
      exec (.wrScroll d) s = .next { s with latch := d, t := t', x := x', w := true, reply := .nothing } ∧
      x'.toNat = d.toNat % 8 ∧ ∀ k, t'.getLsbD k = if k < 5 then d.getLsbD (k + 3) else s.t.getLsbD k) ∧
    (s.w = true → ∃ t' : VAddr,
      exec (.wrScroll d) s = .next { s with latch := d, t := t', w := false, reply := .nothing } ∧
      ∀ k, t'.getLsbD k =
        if 5 ≤ k ∧ k < 10 then d.getLsbD (k - 2) else if 12 ≤ k ∧ k < 15 then d.getLsbD (k - 12) else s.t.getLsbD k)

/-- R317, R318: the first write to port 6 sets bits 13:8 of `t` and clears bit 14, the second sets bits 7:0 and copies `t`
to `v`; outside rendering the second puts `v` on the bus. -/
def Obligations.AddressWritesFillHalves : Prop :=
  ∀ (s : State) (d : Byte), s.warmUp = 0 →
    (s.w = false → ∃ t' : VAddr,
      exec (.wrAddr d) s = .next { s with latch := d, t := t', w := true, reply := .nothing } ∧
      ∀ k, t'.getLsbD k = if k < 8 then s.t.getLsbD k else if k < 14 then d.getLsbD (k - 8) else false) ∧
    (s.w = true → ∃ (t' : VAddr) (u : State),
      u = { s with latch := d, t := t', v := t', w := false, reply := .nothing } ∧
      exec (.wrAddr d) s = .next (if s.renderActive then u else { u with
        lastBus := t'.setWidth 14
        trace := s.trace ++ [⟨s.clock, t'.setWidth 14, !s.lastBus.getLsbD 12 && t'.getLsbD 12⟩] }) ∧
      ∀ k, t'.getLsbD k = if k < 8 then d.getLsbD k else s.t.getLsbD k)

/-- R320, R321, R302, R376: a read of port 7 outside rendering puts `v` on the bus, returns the buffer and refills it from
`v`'s byte, or, in the palette's range, returns the palette entry under the latch's top bits and refills the buffer from
the name table byte below; then `v` moves by 1 or 32, wrapping at 15 bits, and goes on the bus. -/
def Obligations.DataReadIsOneReadBehind : Prop :=
  ∀ s : State, s.renderActive = false →
    let a := s.v.setWidth 14
    let v' := BitVec.ofNat 15 (s.v.toNat + (if s.ctrl.getLsbD 2 then 32 else 1))
    let a' : BusAddr := v'.setWidth 14
    ∃ (r b : Byte) (n : Nat),
      exec .rdData s = .next { s with
        latch := r, reply := .byte r, readBuf := b, v := v', lastBus := a', draws := n
        trace := s.trace ++ [⟨s.clock, a, !s.lastBus.getLsbD 12 && a.getLsbD 12⟩,
          ⟨s.clock, a', !a.getLsbD 12 && a'.getLsbD 12⟩] } ∧
      (a.toNat < 0x3F00 → r = s.readBuf ∧ b = (ppuRead a s).1) ∧
      (0x3F00 ≤ a.toNat → r.toNat = s.latch.toNat / 64 * 64 + (s.palRead (a.setWidth 5)).toNat ∧
        b = (ppuRead (a - 0x1000) s).1)

/-- R323, R321: an access of port 7 during rendering reaches no memory and no bus: a read returns the buffer and refills
it with some byte (a free value, log entry 4), a write drops its byte, and `v` makes one coarse X and one Y
increment. -/
def Obligations.DataPortDuringRenderingReachesNoMemory : Prop :=
  ∀ (s : State) (d : Byte), s.renderActive = true →
    ∃ v' : VAddr, performAll [.dotIncX, .dotIncY] s = .next { s with v := v' } ∧
      exec (.wrData d) s = .next { s with latch := d, v := v', reply := .nothing } ∧
      ∃ b n, exec .rdData s = .next { s with
        latch := s.readBuf, reply := .byte s.readBuf, readBuf := b, v := v', draws := n }

/-- R322, R321, R86, R376: a write of port 7 outside rendering stores its byte through the bus map and changes no other
byte; `v` goes on the bus, moves by 1 or 32, and goes on the bus again. -/
def Obligations.DataWriteStoresOneByte : Prop :=
  ∀ (s : State) (d : Byte), s.renderActive = false → s.chr.wf = true → s.nmt.wf = true → palWf s.pal = true →
    let a := s.v.setWidth 14
    let v' := BitVec.ofNat 15 (s.v.toNat + (if s.ctrl.getLsbD 2 then 32 else 1))
    let a' : BusAddr := v'.setWidth 14
    let stored := fun (c c' : Substrate) (p : Nat) =>
      c' = { c with srcs := c'.srcs } ∧ (∀ i, c'.source i = { c.source i with bytes := (c'.source i).bytes }) ∧
      ∀ i k, (c'.source i).bytes.read k =
        if (i, k) = (c.resolve p).2 ∧ (c.source i).writable = true then d else (c.source i).bytes.read k
    ∃ (chr nmt : Substrate) (pal : Store 6),
      exec (.wrData d) s = .next { s with
        latch := d, reply := .nothing, v := v', lastBus := a', chr, nmt, pal
        trace := s.trace ++ [⟨s.clock, a, !s.lastBus.getLsbD 12 && a.getLsbD 12⟩,
          ⟨s.clock, a', !a.getLsbD 12 && a'.getLsbD 12⟩] } ∧
      (a.toNat < 0x2000 → stored s.chr chr a.toNat ∧ nmt = s.nmt ∧ pal = s.pal) ∧
      (0x2000 ≤ a.toNat → a.toNat < 0x3F00 → stored s.nmt nmt (a.toNat % 0x1000) ∧ chr = s.chr ∧ pal = s.pal) ∧
      (0x3F00 ≤ a.toNat → chr = s.chr ∧ nmt = s.nmt ∧ ∀ k, pal.read k =
        if k = (if a.toNat % 32 ∈ [0x10, 0x14, 0x18, 0x1C] then a.toNat % 32 - 0x10 else a.toNat % 32)
        then d.setWidth 6 else s.pal.read k)

/-- R330, R331, R313: DMA reports its stall, leaves the OAM address where it was, and stores nothing during rendering;
from a page outside the port window it changes only OAM and the latch, and outside rendering the page's bytes stand in
OAM from the OAM address on, attribute bytes masked. The bytes are those the CPU memory is known to hold (log
entry 15). -/
def Obligations.DmaCopiesAPageIntoOam : Prop :=
  ∀ (s : State) (page : Byte), oamWf s.oam = true →
    ∃ t : State, exec (.wrDma page) s = .next t ∧ t.reply = .stall 513 ∧ t.oamAddr = s.oamAddr ∧
      (s.renderActive = true → t.oam = s.oam) ∧
      t = { s with
        latch := t.latch, vbl := t.vbl, vblSuppress := t.vblSuppress, nmiReq := t.nmiReq, w := t.w, v := t.v
        readBuf := t.readBuf, oam := t.oam, lastBus := t.lastBus, trace := t.trace, draws := t.draws
        reply := t.reply } ∧
      (pageOfPorts page = false →
        t = { s with latch := t.latch, oam := t.oam, draws := t.draws, reply := t.reply } ∧
        ∀ f : Nat → Byte, (∀ i < 256, Cells.get s.cpu (page.toNat * 256 + i) = some (f i)) →
          t.latch = f 255 ∧
          (s.renderActive = false → ∀ i < 256,
            let a := (s.oamAddr.toNat + i) % 256
            t.oamByte a = if a % 4 = 2 then f i &&& 0xE3 else f i))

/-! ### Host calls -/

/-- R400, R60, R341: a hard and a soft reset give every field the table's value; a field marked `kept` is not written;
the fields marked `draw` hold some value (log entry 4), OAM's attribute bytes one without bits 4:2. -/
def Obligations.ResetAssignsItsTable : Prop :=
  ∀ (s : State) (time : Nat),
    (∃ t, exec (.reset true time) s = .next t ∧
      t = { s with
        line := 0, dot := 0, clock := time, frame := 0, odd := false, warmUp := 2, vblSuppress := false, burstPhase := 0
        ctrl := 0x00, mask := 0x00, s0hit := false, latch := 0x00, oamAddr := 0x00, v := 0, t := 0, x := 0, w := false
        readBuf := 0x00, nmiReq := false, sec := [], obuf := List.replicate s.cfg.limit.slots none
        lastBus := 0, trace := [], reply := .nothing
        vbl := t.vbl, ovf := t.ovf, ntLatch := t.ntLatch, atLatch := t.atLatch, ptLo := t.ptLo, ptHi := t.ptHi
        shLo := t.shLo, shHi := t.shHi, atShLo := t.atShLo, atShHi := t.atShHi, sprLo := t.sprLo
        oam := t.oam, pal := t.pal, nmt := t.nmt, draws := t.draws } ∧
      t.nmt = { s.nmt with srcs := t.nmt.srcs } ∧ t.nmt.srcs.length = s.nmt.srcs.length ∧
      (∀ i, 0 < i → t.nmt.source i = s.nmt.source i) ∧
      (0 < s.nmt.nsrc → t.nmt.source 0 = { s.nmt.source 0 with bytes := (t.nmt.source 0).bytes }) ∧
      ∀ a, a % 4 = 2 → t.oamByte a &&& 0x1C = 0) ∧
    (∃ t, exec (.reset false time) s = .next t ∧
      t = { s with
        line := 0, dot := 0, clock := time, frame := 0, odd := false, warmUp := 2, vblSuppress := false, burstPhase := 0
        ctrl := 0x00, mask := 0x00, t := 0, x := 0, w := false, readBuf := 0x00, nmiReq := false
        sec := [], obuf := List.replicate s.cfg.limit.slots none, lastBus := 0, trace := [], reply := .nothing
        s0hit := t.s0hit, ovf := t.ovf, ntLatch := t.ntLatch, atLatch := t.atLatch, ptLo := t.ptLo, ptHi := t.ptHi
        shLo := t.shLo, shHi := t.shHi, atShLo := t.atShLo, atShHi := t.atShHi, sprLo := t.sprLo
        draws := t.draws })

/-- R344, R97, R158: construction builds both substrates with their sources and bindings, no hook, HORIZONTAL mirroring,
and ends with `Reset(true, 0)`; a geometry R90 does not allow is refused. The unbound, blank output buffer is the model's
(log entry 11). -/
def Obligations.ConstructBuildsAnInstance : Prop :=
  (∀ (cfg : Setup) (s : State), ∃ (raw t : State),
    exec (.construct cfg chrGeometry nmtGeometry) s = .next t ∧ exec (.reset true 0) raw = .next t ∧
    raw.chr.space = 8192 ∧ raw.chr.page = 1024 ∧ raw.nmt.space = 4096 ∧ raw.nmt.page = 1024 ∧
    raw.chr.pt = List.replicate 8 ⟨0, 0⟩ ∧ raw.nmt.pt = [⟨0, 0⟩, ⟨0, 0⟩, ⟨0, 1024⟩, ⟨0, 1024⟩] ∧
    raw.chr.hooks = List.replicate 8 none ∧ raw.nmt.hooks = List.replicate 4 none ∧
    raw.chr.nsrc = 2 ∧ raw.nmt.nsrc = 2 ∧ raw.mirror = .horizontal ∧ raw.cfg = cfg ∧ raw.refused = s.refused ∧
    (∀ src ∈ [raw.chr.source 0, raw.chr.source 1, raw.nmt.source 1],
      src.size = 1 ∧ src.readable = false ∧ src.writable = false) ∧
    (raw.nmt.source 0).size = 2048 ∧ (raw.nmt.source 0).readable = true ∧ (raw.nmt.source 0).writable = true) ∧
  (∀ (cfg : Setup) (chr nmt : Geometry) (s : State),
    let allowed := fun g : Geometry => (∃ k, g.space = 2 ^ k) ∧ (∃ k, g.page = 2 ^ k) ∧ g.space % g.page = 0
    ¬(allowed chr ∧ allowed nmt) →
      exec (.construct cfg chr nmt) s = .next { s with refused := true, reply := .reason .badGeometry })

/-- R345, R346, R350, R352: binding and unbinding the output buffer, acknowledging the interrupt, and taking a snapshot,
which changes nothing. -/
def Obligations.FrameOutputAndHandshake : Prop :=
  ∀ (s : State) (target : Store 9),
    exec (.beginFrame target) s = .next { s with out := target, outBound := true, reply := .nothing } ∧
    exec .endFrame s = .next { s with outBound := false, reply := .frame s.out s.burstPhase } ∧
    exec .ackNmi s = .next { s with nmiReq := false, reply := .nothing } ∧
    ∃ l, exec .snapshot s = .next { s with reply := .chunks l } ∧ l.map (·.tag) = [.reg, .scroll, .oam, .banks, .pal] ∧
      ∀ c ∈ l, c.len = c.bytes.length

/-- R354: a snapshot restored into an instance of the same shape, given the same rederivable sources, gives back every
field but the trace, the output buffer, its binding and the refusal mark, memories by what they read. The layout of the
chunks is the model's (log entries 12 and 13), and so is that the receiving instance keeps its own draw counter (log
entry 33). -/
def Obligations.RestoreOfASnapshotGivesBackTheState : Prop :=
  ∀ s t : State, s.wf = true → SameShape s t →
    (∀ x i, ((s.sub x).source i).rederivable = true →
      ∀ k < ((s.sub x).source i).size, ((t.sub x).source i).bytes.read k = ((s.sub x).source i).bytes.read k) →
    ∃ (l : List Chunk) (r : State), exec .snapshot s = .next { s with reply := .chunks l } ∧
      exec (.restore l) t = .next r ∧
      r = { s with
        trace := [], out := t.out, outBound := t.outBound, refused := t.refused, draws := t.draws, inbox := t.inbox
        reply := .nothing, cpu := t.cpu, oam := r.oam, pal := r.pal, chr := r.chr, nmt := r.nmt } ∧
      (∀ a < 256, r.oamByte a = s.oamByte a) ∧ (∀ k < 32, r.pal.read k = s.pal.read k) ∧
      ∀ x, (r.sub x) = { s.sub x with srcs := (r.sub x).srcs } ∧ (r.sub x).nsrc = (s.sub x).nsrc ∧
        ∀ i, (r.sub x).source i = { (s.sub x).source i with bytes := ((r.sub x).source i).bytes } ∧
          ∀ k < ((s.sub x).source i).size, ((r.sub x).source i).bytes.read k = ((s.sub x).source i).bytes.read k

/-- R353, R370, R371: a load fails, and leaves the state untouched, on a chunk whose stated length is not its byte count;
on a bank chunk in which a page of either substrate names a source that substrate does not have; on an OAM, palette or
scroll chunk of another length than its layout's; and on a chunk of any tag that runs past its layout's end or stops short
of it. A chunk of unknown tag is skipped. A load either fails so, or empties the trace and keeps the refusal mark, the
output buffer and its binding. The layout, and so its lengths, is the model's (log entries 13 and 14). -/
def Obligations.RestoreFailsWholeOrNotAtAll : Prop :=
  ∀ (s : State) (before after : List Chunk) (c : Chunk),
    let load := exec (.restore (before ++ c :: after)) s
    let failed : State := { s with reply := .reason .corruptState }
    let named := fun (x : Sub) (pages : List (PageEntry × Option Nat)) => ∀ p ∈ pages, p.1.src < (s.sub x).nsrc
    (c.len ≠ c.bytes.length → load = .next failed) ∧
    (∀ (chr : List (PageEntry × Option Nat)) (bad : PageEntry) (hook : Option Nat) (rest : List Byte),
      c.tag = .banks → c.bytes = chr.flatMap encPage ++ encPage (bad, hook) ++ rest →
      named .chr chr → chr.length < s.chr.pt.length → s.chr.nsrc ≤ bad.src → load = .next failed) ∧
    (∀ (chr nmt : List (PageEntry × Option Nat)) (bad : PageEntry) (hook : Option Nat) (rest : List Byte),
      c.tag = .banks → c.bytes = chr.flatMap encPage ++ nmt.flatMap encPage ++ encPage (bad, hook) ++ rest →
      named .chr chr → chr.length = s.chr.pt.length → named .nmt nmt → nmt.length < s.nmt.pt.length →
      s.nmt.nsrc ≤ bad.src → load = .next failed) ∧
    (∀ fixed ∈ [(Tag.oam, 256), (.pal, 32), (.scroll, 7)],
      c.tag = fixed.1 → c.bytes.length ≠ fixed.2 → load = .next failed) ∧
    (∀ (u : State) (d : Chunk) (more : List Byte), u.wf = true → SameShape u s → d ∈ snapshotChunks u → c.tag = d.tag →
      more ≠ [] → (c.bytes = d.bytes ++ more ∨ c.bytes ++ more = d.bytes) → load = .next failed) ∧
    (∀ k, c.tag = .unknown k → c.len = c.bytes.length → load = exec (.restore (before ++ after)) s) ∧
    ∃ t, load = .next t ∧
      (t = failed ∨
        (t.reply = .nothing ∧ t.trace = [] ∧ t.refused = s.refused ∧ t.out = s.out ∧ t.outBound = s.outBound))

/-- R407, R344, R353: either launch leaves a well-formed instance of the block's geometry, with no bus event, and the power-on
launch stands at the first dot of an even frame, warming up, with rendering and the interrupt off. The list of known CPU
bytes is the driver's (log entry 15); that no output is bound is the model's choice (log entry 11). -/
def Obligations.LaunchesAreWellFormed : Prop :=
  ∀ s : State, Launch s →
    (Cells.rising 0 s.cpu = true → s.wf = true) ∧ s.trace = [] ∧ s.outBound = false ∧
    (s.chr.space, s.chr.page, s.chr.nsrc) = (8192, 1024, 2) ∧ (s.nmt.space, s.nmt.page, s.nmt.nsrc) = (4096, 1024, 2) ∧
    (PowerOn s → s.onSchedule = true ∧ s.line = 0 ∧ s.dot = 0 ∧ s.odd = false ∧ s.warming = true ∧ s.renderOn = false ∧
      s.nmiLine = false)

/-! ### Events and idle dots -/

/-- R180, R182, R184, R248, R178: the vblank set or its suppression, the flag clear, the warm-up count, OAMADDR
zeroing, and the skip test with the wrap it decides, each with everything else unchanged. That DOT_IDLE as a
micro-operation changes nothing is the model's choice (log entry 19): R176 says an idle dot changes the position and the
clock, and here those are the dot step's at every dot (`DotAdvancesThePosition`). -/
def Obligations.EventMicroOperations : Prop :=
  ∀ s : State,
    exec .dotVblSet s = .next (if s.vblSuppress then { s with vblSuppress := false } else { s with vbl := true }) ∧
    exec .dotVblClr s = .next { s with vbl := false, s0hit := false, ovf := false } ∧
    exec .dotWarmCount s = .next { s with warmUp := if 0 < s.warmUp then s.warmUp - 1 else s.warmUp } ∧
    exec .dotOamZero s = .next { s with oamAddr := 0 } ∧
    exec .dotIdle s = .next s ∧
    (s.cfg.std.oddSkip = true ∧ s.odd = true ∧ s.renderOn = true → ∃ b, exec .dotSkip s = .next { s with
      line := 0, dot := 0, frame := s.frame + 1, odd := decide ((s.frame + 1) % 2 = 1), burstPhase := b }) ∧
    (¬(s.cfg.std.oddSkip = true ∧ s.odd = true ∧ s.renderOn = true) → s.dot.toNat = 339 →
      exec .dotSkip s = .next { s with dot := 340 })

/-! ### Background -/

/-- R211, R212, R213, R220, R250, R131, R129, R376: each background fetch puts its address on the bus, with the rise of bit
12, and latches the byte read there, the attribute fetch the two bits of the tile's quadrant; a dummy fetch of either unit
only puts the name table address on the bus. The byte of an unreadable or hooked page is a free value, which `ppuRead`
names. -/
def Obligations.BackgroundFetchesLatchTheirBytes : Prop :=
  ∀ s : State,
    let nt := 0x2000 + s.v.toNat % 0x1000
    let at' := 0x23C0 + 0x400 * ntSelect s.v + 8 * (coarseY s.v / 4) + coarseX s.v / 4
    let pt := (if s.ctrl.getLsbD 4 then 0x1000 else 0) + 16 * s.ntLatch.toNat + fineRow s.v
    (∃ n, exec .dotNt s = .next { driven (BitVec.ofNat 14 nt) n s with ntLatch := (ppuRead (BitVec.ofNat 14 nt) s).1 }) ∧
    (∃ n g, exec .dotAt s = .next { driven (BitVec.ofNat 14 at') n s with atLatch := g } ∧
      g.toNat = (ppuRead (BitVec.ofNat 14 at') s).1.toNat /
        4 ^ (2 * (coarseY s.v / 2 % 2) + coarseX s.v / 2 % 2) % 4) ∧
    (∃ n, exec .dotPtLo s = .next { driven (BitVec.ofNat 14 pt) n s with ptLo := (ppuRead (BitVec.ofNat 14 pt) s).1 }) ∧
    ∀ i ∈ [Instr.dotDummyNt338, .dotDummyNt340, .dotSprNt2, .dotSprNt4],
      ∃ n, exec i s = .next (driven (BitVec.ofNat 14 nt) n s)

/-- R215, R214: the pattern high fetch reads eight bytes above the low one and reloads the low byte of each shift buffer;
the shift moves every buffer one bit left, a zero coming in. -/
def Obligations.ShiftAndReload : Prop :=
  ∀ s : State,
    let a := (if s.ctrl.getLsbD 4 then 0x1000 else 0) + 16 * s.ntLatch.toNat + fineRow s.v + 8
    let hi := (ppuRead (BitVec.ofNat 14 a) s).1
    (∃ (n : Nat) (lo' hi' atLo' atHi' : Shifter),
      exec .dotPtHi s = .next { driven (BitVec.ofNat 14 a) n s with
        ptHi := hi, shLo := lo', shHi := hi', atShLo := atLo', atShHi := atHi' } ∧
      lo'.toNat = s.shLo.toNat / 256 * 256 + s.ptLo.toNat ∧ hi'.toNat = s.shHi.toNat / 256 * 256 + hi.toNat ∧
      atLo'.toNat = s.atShLo.toNat / 256 * 256 + (if s.atLatch.getLsbD 0 then 255 else 0) ∧
      atHi'.toNat = s.atShHi.toNat / 256 * 256 + (if s.atLatch.getLsbD 1 then 255 else 0)) ∧
    (∃ lo' hi' atLo' atHi' : Shifter,
      exec .dotShift s = .next { s with shLo := lo', shHi := hi', atShLo := atLo', atShHi := atHi' } ∧
      lo'.toNat = 2 * s.shLo.toNat % 65536 ∧ hi'.toNat = 2 * s.shHi.toNat % 65536 ∧
      atLo'.toNat = 2 * s.atShLo.toNat % 65536 ∧ atHi'.toNat = 2 * s.atShHi.toNat % 65536)

/-- R221, R282: the background candidate is transparent while the background is off, in the first eight columns while they
are clipped, and where the pattern value at bit 15 less the fine X is 0; else it is the palette group over that value.
R210, R223: the tile a reload brings in is what this selection shows from eight shifts later on, less the fine X: its
columns left to right, its palette group over each pattern value, transparent where that value is 0. -/
def Obligations.ReloadedTileIsShownInOrder : Prop :=
  (∀ (s : State) (column : Nat),
    let b := 15 - s.x.toNat
    let value : BitVec 2 := BitVec.ofBool (s.shHi.getLsbD b) ++ BitVec.ofBool (s.shLo.getLsbD b)
    let group : BitVec 2 := BitVec.ofBool (s.atShHi.getLsbD b) ++ BitVec.ofBool (s.atShLo.getLsbD b)
    (s.mask.getLsbD 3 = false → bgPixel column s = none) ∧
    (column < 8 → s.mask.getLsbD 1 = false → bgPixel column s = none) ∧
    (s.mask.getLsbD 3 = true → (8 ≤ column ∨ s.mask.getLsbD 1 = true) →
      bgPixel column s = if value = 0 then none else some (group ++ value))) ∧
  ∀ (s t : State) (c column : Nat), exec .dotPtHi s = .next t → c < 8 → s.x.toNat ≤ 8 + c → s.mask.getLsbD 3 = true →
    (8 ≤ column ∨ s.mask.getLsbD 1 = true) →
    ∃ u, performAll (List.replicate (8 + c - s.x.toNat) .dotShift) t = .next u ∧
      let value := BitVec.ofBool (t.ptHi.getLsbD (7 - c)) ++ BitVec.ofBool (s.ptLo.getLsbD (7 - c))
      bgPixel column u = if value = 0 then none else some (s.atLatch ++ value)

/-- R216, R217, R218, R219: the coarse X increment steps the column and, from 31, switches the horizontal name table; the
Y increment steps the row and, from 7, the tile row, which wraps at 29 with a switch of the vertical name table and at 31
without. The horizontal copy takes coarse X and the horizontal name table from `t`, the vertical copy fine Y, coarse Y and
the vertical name table; the other bits of `v` stay. -/
def Obligations.ScrollArithmetic : Prop :=
  ∀ s : State,
    (∃ v' : VAddr, exec .dotIncX s = .next { s with v := v' } ∧ coarseX v' = (coarseX s.v + 1) % 32 ∧
      coarseY v' = coarseY s.v ∧ fineRow v' = fineRow s.v ∧ v'.getLsbD 11 = s.v.getLsbD 11 ∧
      v'.getLsbD 10 = (s.v.getLsbD 10 != decide (coarseX s.v = 31))) ∧
    (∃ v' : VAddr, exec .dotIncY s = .next { s with v := v' } ∧ coarseX v' = coarseX s.v ∧
      fineRow v' = (fineRow s.v + 1) % 8 ∧ v'.getLsbD 10 = s.v.getLsbD 10 ∧
      coarseY v' = (if fineRow s.v < 7 then coarseY s.v
        else if coarseY s.v = 29 ∨ coarseY s.v = 31 then 0 else coarseY s.v + 1) ∧
      v'.getLsbD 11 = (s.v.getLsbD 11 != decide (fineRow s.v = 7 ∧ coarseY s.v = 29))) ∧
    (∃ v' : VAddr, exec .dotHCopy s = .next { s with v := v' } ∧
      ∀ k, v'.getLsbD k = if k < 5 ∨ k = 10 then s.t.getLsbD k else s.v.getLsbD k) ∧
    (∃ v' : VAddr, exec .dotVCopy s = .next { s with v := v' } ∧
      ∀ k, v'.getLsbD k = if (5 ≤ k ∧ k < 10) ∨ 11 ≤ k then s.t.getLsbD k else s.v.getLsbD k)

/-! ### Sprites -/

/-- R244, R243: evaluation selects the first entries in range, lowest OAM index first, up to the limit, whatever the OAM
address; it writes nothing but the secondary buffer and the overflow flag. -/
def Obligations.EvaluationSelectsTheFirstInRange : Prop :=
  ∀ s : State, ∃ overflow, exec .dotEval s = .next { s with
    ovf := s.ovf || overflow
    sec := ((entriesInRange s).take (if s.cfg.limit = .eight then 8 else 64)).map fun n =>
      ⟨s.oamByte (4 * n), s.oamByte (4 * n + 1), s.oamByte (4 * n + 2), s.oamByte (4 * n + 3), BitVec.ofNat 6 n⟩ }

/-- R245, R246: without the bug the overflow flag is set by a ninth entry in range; with it, by any byte the diagonal scan
behind the eighth reads as a Y in range; in the unlimited mode, never. -/
def Obligations.OverflowScanSetsTheFlag : Prop :=
  ∀ s u : State, exec .dotEval s = .next u →
    (s.cfg.limit = .unlimited → u.ovf = s.ovf) ∧
    (s.cfg.limit = .eight → s.cfg.overflowBug = false →
      (u.ovf = true ↔ s.ovf = true ∨ 8 < (entriesInRange s).length)) ∧
    (s.cfg.limit = .eight → s.cfg.overflowBug = true →
      (u.ovf = true ↔ s.ovf = true ∨ ∃ eighth j, (entriesInRange s)[7]? = some eighth ∧ eighth + 1 + j < 64 ∧
        let y := (s.oamByte (4 * (eighth + 1 + j) + j % 4)).toNat
        y ≤ s.line.toNat ∧ s.line.toNat < y + (if s.ctrl.getLsbD 5 then 16 else 8)))

/-- R249, R251, R252: at its dots a slot fetches its entry's row, or the substitute's where it is empty, latches the low
plane, and with the high plane writes the output slot: the entry's fields and its eight pixels, flipped as its attribute
says, or nothing. On the pre-render line every slot is empty. The row of a stale entry, one whose Y exceeds the line, is the
model's choice (log entry 30): R251 gives it none. -/
def Obligations.SpriteSlotFetches : Prop :=
  ∀ s : State, 257 ≤ s.dot.toNat → s.dot.toNat ≤ 320 →
    let k := (s.dot.toNat - 257) / 8
    let e := if s.line.toNat < 240 then s.sec[k]? else none
    let a := sprRowAddr s.ctrl e s.line.toNat
    let hi := (ppuRead (BitVec.ofNat 14 (a + 8)) s).1
    (∃ n, exec .dotSprLo s = .next { driven (BitVec.ofNat 14 a) n s with sprLo := (ppuRead (BitVec.ofNat 14 a) s).1 }) ∧
    (∃ (n : Nat) (slot : Option OutSlot),
      exec .dotSprHi s = .next { driven (BitVec.ofNat 14 (a + 8)) n s with obuf := s.obuf.set k slot } ∧
      (e = none → slot = none) ∧
      ∀ f, e = some f → ∃ px, slot = some ⟨f.x, f.attr.getLsbD 5, f.idx == 0, f.attr.setWidth 2, px⟩ ∧ px.length = 8 ∧
        ∀ c < 8, let b := if f.attr.getLsbD 6 then c else 7 - c
          px[c]? = some (BitVec.ofBool (hi.getLsbD b) ++ BitVec.ofBool (s.sprLo.getLsbD b)))

/-- R253: in the unlimited mode the slots past the eighth are filled together, from the same two bytes and in the same
form as the first eight, with no bus event; slots without an entry are empty, and the first eight stay. The row of a stale
entry, one whose Y exceeds the line, is the model's choice (log entry 30): R251 gives it none. -/
def Obligations.ExtraSlotsAreFilledSilently : Prop :=
  ∀ s : State, ∃ (ob : List (Option OutSlot)) (n : Nat),
    exec .dotSprExtra s = .next { s with obuf := ob, draws := n } ∧ ob.length = s.obuf.length ∧
    (∀ k < 8, ob[k]? = s.obuf[k]?) ∧
    ∀ k, 8 ≤ k → k < 64 → k < s.obuf.length →
      let e := if s.line.toNat < 240 then s.sec[k]? else none
      (e = none → ob[k]? = some none) ∧
      ∀ f, e = some f → ∃ (lo hi : Byte) (px : List (BitVec 2)),
        ob[k]? = some (some ⟨f.x, f.attr.getLsbD 5, f.idx == 0, f.attr.setWidth 2, px⟩) ∧ px.length = 8 ∧
        (∀ c < 8, let b := if f.attr.getLsbD 6 then c else 7 - c
          px[c]? = some (BitVec.ofBool (hi.getLsbD b) ++ BitVec.ofBool (lo.getLsbD b))) ∧
        let a := sprRowAddr s.ctrl (some f) s.line.toNat
        (s.chr.plainAt a = true → lo = s.chr.byteAt a) ∧ (s.chr.plainAt (a + 8) = true → hi = s.chr.byteAt (a + 8))

/-! ### Pixels -/

/-- R281, R284, R285, R287: a pixel is the sprite's palette index when the sprite is opaque and in front or over a
transparent background, else the background's, else 0; the hit flag rises when an opaque pixel of sprite 0 meets an
opaque background left of column 255; the palette colour, masked to grey if so set, under the emphasis bits goes to the
bound buffer at its place and nowhere else. -/
def Obligations.PixelIsCompositedAndEmitted : Prop :=
  ∀ s : State, s.line.toNat < 240 → 1 ≤ s.dot.toNat → s.dot.toNat ≤ 256 → targetFits s.out = true →
    let c := s.dot.toNat - 1
    let bg := bgPixel c s
    let sp := sprPixel c s
    ∃ (i : BitVec 5) (o : OutIndex) (out : Store 9),
      exec .dotPixel s = .next { s with
        out, s0hit := s.s0hit || (bg.isSome && sp.any (fun p => p.zero) && decide (c ≠ 255)) } ∧
      (∀ p, sp = some p → p.behind = false ∨ bg = none → i.toNat = 0x10 + 4 * p.palg.toNat + p.pv.toNat) ∧
      (∀ b, bg = some b → (∀ p, sp = some p → p.behind = true) → i.toNat = b.toNat) ∧
      (bg = none → sp = none → i = 0) ∧
      o.toNat = s.mask.toNat / 32 * 64 +
        (if s.mask.getLsbD 0 then s.palRead i &&& 0x30 else s.palRead i).toNat ∧
      ∀ k, out.read k = if s.outBound = true ∧ k = 256 * s.line.toNat + c then o else s.out.read k

/-- R286, R287: with rendering off a pixel shows the palette entry `v` points at, or the backdrop, and changes nothing
else. -/
def Obligations.PixelWithRenderingOff : Prop :=
  ∀ s : State, s.line.toNat < 240 → 1 ≤ s.dot.toNat → s.dot.toNat ≤ 256 → targetFits s.out = true →
    let i : BitVec 5 := if 0x3F00 ≤ s.v.toNat % 0x4000 then s.v.setWidth 5 else 0
    let o := s.mask.toNat / 32 * 64 + (if s.mask.getLsbD 0 then s.palRead i &&& 0x30 else s.palRead i).toNat
    ∃ out : Store 9, exec .dotPixelOff s = .next { s with out } ∧
      ∀ k, (out.read k).toNat =
        if s.outBound = true ∧ k = 256 * s.line.toNat + (s.dot.toNat - 1) then o else (s.out.read k).toNat

/-- R283: with sprites shown at the column, the first slot that is opaque there gives the sprite pixel, whatever its
priority; with none opaque, with sprites off, or clipped at the left edge, there is none. -/
def Obligations.FirstOpaqueSpriteWins : Prop :=
  ∀ (s : State) (c : Nat),
    let shown := s.mask.getLsbD 4 = true ∧ (8 ≤ c ∨ s.mask.getLsbD 2 = true)
    (¬shown → sprPixel c s = none) ∧
    ((∀ o ∈ s.obuf, slotShows o c = false) → sprPixel c s = none) ∧
    ∀ (k : Nat) (o : OutSlot), shown → s.obuf[k]? = some (some o) → slotShows (some o) c = true →
      (∀ j < k, ∀ q, s.obuf[j]? = some q → slotShows q c = false) →
      sprPixel c s = some ⟨o.px.getD (c - o.x.toNat) 0, o.palg, o.behind, o.zero⟩
end

