-- ==== Sys2Proof/Laws/State.lean ====
section
/-! SUPPORT. One lemma per field per shared update of the state, so that no proof unfolds a record update. -/

namespace Sys2Proof.Machine

/-! ### answer -/

section
variable (r : Reply) (s : State)

@[simp] theorem answer_line : (answer r s).line = s.line := rfl
@[simp] theorem answer_dot : (answer r s).dot = s.dot := rfl
@[simp] theorem answer_clock : (answer r s).clock = s.clock := rfl
@[simp] theorem answer_frame : (answer r s).frame = s.frame := rfl
@[simp] theorem answer_odd : (answer r s).odd = s.odd := rfl
@[simp] theorem answer_warmUp : (answer r s).warmUp = s.warmUp := rfl
@[simp] theorem answer_vblSuppress : (answer r s).vblSuppress = s.vblSuppress := rfl
@[simp] theorem answer_burstPhase : (answer r s).burstPhase = s.burstPhase := rfl
@[simp] theorem answer_latch : (answer r s).latch = s.latch := rfl
@[simp] theorem answer_ctrl : (answer r s).ctrl = s.ctrl := rfl
@[simp] theorem answer_mask : (answer r s).mask = s.mask := rfl
@[simp] theorem answer_vbl : (answer r s).vbl = s.vbl := rfl
@[simp] theorem answer_s0hit : (answer r s).s0hit = s.s0hit := rfl
@[simp] theorem answer_ovf : (answer r s).ovf = s.ovf := rfl
@[simp] theorem answer_oamAddr : (answer r s).oamAddr = s.oamAddr := rfl
@[simp] theorem answer_v : (answer r s).v = s.v := rfl
@[simp] theorem answer_t : (answer r s).t = s.t := rfl
@[simp] theorem answer_x : (answer r s).x = s.x := rfl
@[simp] theorem answer_w : (answer r s).w = s.w := rfl
@[simp] theorem answer_readBuf : (answer r s).readBuf = s.readBuf := rfl
@[simp] theorem answer_nmiReq : (answer r s).nmiReq = s.nmiReq := rfl
@[simp] theorem answer_ntLatch : (answer r s).ntLatch = s.ntLatch := rfl
@[simp] theorem answer_atLatch : (answer r s).atLatch = s.atLatch := rfl
@[simp] theorem answer_ptLo : (answer r s).ptLo = s.ptLo := rfl
@[simp] theorem answer_ptHi : (answer r s).ptHi = s.ptHi := rfl
@[simp] theorem answer_shLo : (answer r s).shLo = s.shLo := rfl
@[simp] theorem answer_shHi : (answer r s).shHi = s.shHi := rfl
@[simp] theorem answer_atShLo : (answer r s).atShLo = s.atShLo := rfl
@[simp] theorem answer_atShHi : (answer r s).atShHi = s.atShHi := rfl
@[simp] theorem answer_oam : (answer r s).oam = s.oam := rfl
@[simp] theorem answer_sec : (answer r s).sec = s.sec := rfl
@[simp] theorem answer_obuf : (answer r s).obuf = s.obuf := rfl
@[simp] theorem answer_sprLo : (answer r s).sprLo = s.sprLo := rfl
@[simp] theorem answer_pal : (answer r s).pal = s.pal := rfl
@[simp] theorem answer_chr : (answer r s).chr = s.chr := rfl
@[simp] theorem answer_nmt : (answer r s).nmt = s.nmt := rfl
@[simp] theorem answer_mirror : (answer r s).mirror = s.mirror := rfl
@[simp] theorem answer_lastBus : (answer r s).lastBus = s.lastBus := rfl
@[simp] theorem answer_trace : (answer r s).trace = s.trace := rfl
@[simp] theorem answer_out : (answer r s).out = s.out := rfl
@[simp] theorem answer_outBound : (answer r s).outBound = s.outBound := rfl
@[simp] theorem answer_refused : (answer r s).refused = s.refused := rfl
@[simp] theorem answer_cfg : (answer r s).cfg = s.cfg := rfl
@[simp] theorem answer_draws : (answer r s).draws = s.draws := rfl
@[simp] theorem answer_inbox : (answer r s).inbox = s.inbox := rfl
@[simp] theorem answer_reply : (answer r s).reply = r := rfl
@[simp] theorem answer_cpu : (answer r s).cpu = s.cpu := rfl

end

/-! ### refuse -/

section
variable (r : Reason) (s : State)

@[simp] theorem refuse_line : (refuse r s).line = s.line := rfl
@[simp] theorem refuse_dot : (refuse r s).dot = s.dot := rfl
@[simp] theorem refuse_clock : (refuse r s).clock = s.clock := rfl
@[simp] theorem refuse_frame : (refuse r s).frame = s.frame := rfl
@[simp] theorem refuse_odd : (refuse r s).odd = s.odd := rfl
@[simp] theorem refuse_warmUp : (refuse r s).warmUp = s.warmUp := rfl
@[simp] theorem refuse_vblSuppress : (refuse r s).vblSuppress = s.vblSuppress := rfl
@[simp] theorem refuse_burstPhase : (refuse r s).burstPhase = s.burstPhase := rfl
@[simp] theorem refuse_latch : (refuse r s).latch = s.latch := rfl
@[simp] theorem refuse_ctrl : (refuse r s).ctrl = s.ctrl := rfl
@[simp] theorem refuse_mask : (refuse r s).mask = s.mask := rfl
@[simp] theorem refuse_vbl : (refuse r s).vbl = s.vbl := rfl
@[simp] theorem refuse_s0hit : (refuse r s).s0hit = s.s0hit := rfl
@[simp] theorem refuse_ovf : (refuse r s).ovf = s.ovf := rfl
@[simp] theorem refuse_oamAddr : (refuse r s).oamAddr = s.oamAddr := rfl
@[simp] theorem refuse_v : (refuse r s).v = s.v := rfl
@[simp] theorem refuse_t : (refuse r s).t = s.t := rfl
@[simp] theorem refuse_x : (refuse r s).x = s.x := rfl
@[simp] theorem refuse_w : (refuse r s).w = s.w := rfl
@[simp] theorem refuse_readBuf : (refuse r s).readBuf = s.readBuf := rfl
@[simp] theorem refuse_nmiReq : (refuse r s).nmiReq = s.nmiReq := rfl
@[simp] theorem refuse_ntLatch : (refuse r s).ntLatch = s.ntLatch := rfl
@[simp] theorem refuse_atLatch : (refuse r s).atLatch = s.atLatch := rfl
@[simp] theorem refuse_ptLo : (refuse r s).ptLo = s.ptLo := rfl
@[simp] theorem refuse_ptHi : (refuse r s).ptHi = s.ptHi := rfl
@[simp] theorem refuse_shLo : (refuse r s).shLo = s.shLo := rfl
@[simp] theorem refuse_shHi : (refuse r s).shHi = s.shHi := rfl
@[simp] theorem refuse_atShLo : (refuse r s).atShLo = s.atShLo := rfl
@[simp] theorem refuse_atShHi : (refuse r s).atShHi = s.atShHi := rfl
@[simp] theorem refuse_oam : (refuse r s).oam = s.oam := rfl
@[simp] theorem refuse_sec : (refuse r s).sec = s.sec := rfl
@[simp] theorem refuse_obuf : (refuse r s).obuf = s.obuf := rfl
@[simp] theorem refuse_sprLo : (refuse r s).sprLo = s.sprLo := rfl
@[simp] theorem refuse_pal : (refuse r s).pal = s.pal := rfl
@[simp] theorem refuse_chr : (refuse r s).chr = s.chr := rfl
@[simp] theorem refuse_nmt : (refuse r s).nmt = s.nmt := rfl
@[simp] theorem refuse_mirror : (refuse r s).mirror = s.mirror := rfl
@[simp] theorem refuse_lastBus : (refuse r s).lastBus = s.lastBus := rfl
@[simp] theorem refuse_trace : (refuse r s).trace = s.trace := rfl
@[simp] theorem refuse_out : (refuse r s).out = s.out := rfl
@[simp] theorem refuse_outBound : (refuse r s).outBound = s.outBound := rfl
@[simp] theorem refuse_refused : (refuse r s).refused = true := rfl
@[simp] theorem refuse_cfg : (refuse r s).cfg = s.cfg := rfl
@[simp] theorem refuse_draws : (refuse r s).draws = s.draws := rfl
@[simp] theorem refuse_inbox : (refuse r s).inbox = s.inbox := rfl
@[simp] theorem refuse_reply : (refuse r s).reply = .reason r := rfl
@[simp] theorem refuse_cpu : (refuse r s).cpu = s.cpu := rfl

end

/-! ### failCorrupt -/

section
variable (s : State)

@[simp] theorem failCorrupt_line : (failCorrupt s).line = s.line := rfl
@[simp] theorem failCorrupt_dot : (failCorrupt s).dot = s.dot := rfl
@[simp] theorem failCorrupt_clock : (failCorrupt s).clock = s.clock := rfl
@[simp] theorem failCorrupt_frame : (failCorrupt s).frame = s.frame := rfl
@[simp] theorem failCorrupt_odd : (failCorrupt s).odd = s.odd := rfl
@[simp] theorem failCorrupt_warmUp : (failCorrupt s).warmUp = s.warmUp := rfl
@[simp] theorem failCorrupt_vblSuppress : (failCorrupt s).vblSuppress = s.vblSuppress := rfl
@[simp] theorem failCorrupt_burstPhase : (failCorrupt s).burstPhase = s.burstPhase := rfl
@[simp] theorem failCorrupt_latch : (failCorrupt s).latch = s.latch := rfl
@[simp] theorem failCorrupt_ctrl : (failCorrupt s).ctrl = s.ctrl := rfl
@[simp] theorem failCorrupt_mask : (failCorrupt s).mask = s.mask := rfl
@[simp] theorem failCorrupt_vbl : (failCorrupt s).vbl = s.vbl := rfl
@[simp] theorem failCorrupt_s0hit : (failCorrupt s).s0hit = s.s0hit := rfl
@[simp] theorem failCorrupt_ovf : (failCorrupt s).ovf = s.ovf := rfl
@[simp] theorem failCorrupt_oamAddr : (failCorrupt s).oamAddr = s.oamAddr := rfl
@[simp] theorem failCorrupt_v : (failCorrupt s).v = s.v := rfl
@[simp] theorem failCorrupt_t : (failCorrupt s).t = s.t := rfl
@[simp] theorem failCorrupt_x : (failCorrupt s).x = s.x := rfl
@[simp] theorem failCorrupt_w : (failCorrupt s).w = s.w := rfl
@[simp] theorem failCorrupt_readBuf : (failCorrupt s).readBuf = s.readBuf := rfl
@[simp] theorem failCorrupt_nmiReq : (failCorrupt s).nmiReq = s.nmiReq := rfl
@[simp] theorem failCorrupt_ntLatch : (failCorrupt s).ntLatch = s.ntLatch := rfl
@[simp] theorem failCorrupt_atLatch : (failCorrupt s).atLatch = s.atLatch := rfl
@[simp] theorem failCorrupt_ptLo : (failCorrupt s).ptLo = s.ptLo := rfl
@[simp] theorem failCorrupt_ptHi : (failCorrupt s).ptHi = s.ptHi := rfl
@[simp] theorem failCorrupt_shLo : (failCorrupt s).shLo = s.shLo := rfl
@[simp] theorem failCorrupt_shHi : (failCorrupt s).shHi = s.shHi := rfl
@[simp] theorem failCorrupt_atShLo : (failCorrupt s).atShLo = s.atShLo := rfl
@[simp] theorem failCorrupt_atShHi : (failCorrupt s).atShHi = s.atShHi := rfl
@[simp] theorem failCorrupt_oam : (failCorrupt s).oam = s.oam := rfl
@[simp] theorem failCorrupt_sec : (failCorrupt s).sec = s.sec := rfl
@[simp] theorem failCorrupt_obuf : (failCorrupt s).obuf = s.obuf := rfl
@[simp] theorem failCorrupt_sprLo : (failCorrupt s).sprLo = s.sprLo := rfl
@[simp] theorem failCorrupt_pal : (failCorrupt s).pal = s.pal := rfl
@[simp] theorem failCorrupt_chr : (failCorrupt s).chr = s.chr := rfl
@[simp] theorem failCorrupt_nmt : (failCorrupt s).nmt = s.nmt := rfl
@[simp] theorem failCorrupt_mirror : (failCorrupt s).mirror = s.mirror := rfl
@[simp] theorem failCorrupt_lastBus : (failCorrupt s).lastBus = s.lastBus := rfl
@[simp] theorem failCorrupt_trace : (failCorrupt s).trace = s.trace := rfl
@[simp] theorem failCorrupt_out : (failCorrupt s).out = s.out := rfl
@[simp] theorem failCorrupt_outBound : (failCorrupt s).outBound = s.outBound := rfl
@[simp] theorem failCorrupt_refused : (failCorrupt s).refused = s.refused := rfl
@[simp] theorem failCorrupt_cfg : (failCorrupt s).cfg = s.cfg := rfl
@[simp] theorem failCorrupt_draws : (failCorrupt s).draws = s.draws := rfl
@[simp] theorem failCorrupt_inbox : (failCorrupt s).inbox = s.inbox := rfl
@[simp] theorem failCorrupt_reply : (failCorrupt s).reply = .reason .corruptState := rfl
@[simp] theorem failCorrupt_cpu : (failCorrupt s).cpu = s.cpu := rfl

end

/-! ### tick -/

section
variable (s : State)

@[simp] theorem tick_line : (tick s).line = s.line := rfl
@[simp] theorem tick_dot : (tick s).dot = s.dot := rfl
@[simp] theorem tick_clock : (tick s).clock = s.clock + s.cfg.std.dotMaster := rfl
@[simp] theorem tick_frame : (tick s).frame = s.frame := rfl
@[simp] theorem tick_odd : (tick s).odd = s.odd := rfl
@[simp] theorem tick_warmUp : (tick s).warmUp = s.warmUp := rfl
@[simp] theorem tick_vblSuppress : (tick s).vblSuppress = s.vblSuppress := rfl
@[simp] theorem tick_burstPhase : (tick s).burstPhase = s.burstPhase := rfl
@[simp] theorem tick_latch : (tick s).latch = s.latch := rfl
@[simp] theorem tick_ctrl : (tick s).ctrl = s.ctrl := rfl
@[simp] theorem tick_mask : (tick s).mask = s.mask := rfl
@[simp] theorem tick_vbl : (tick s).vbl = s.vbl := rfl
@[simp] theorem tick_s0hit : (tick s).s0hit = s.s0hit := rfl
@[simp] theorem tick_ovf : (tick s).ovf = s.ovf := rfl
@[simp] theorem tick_oamAddr : (tick s).oamAddr = s.oamAddr := rfl
@[simp] theorem tick_v : (tick s).v = s.v := rfl
@[simp] theorem tick_t : (tick s).t = s.t := rfl
@[simp] theorem tick_x : (tick s).x = s.x := rfl
@[simp] theorem tick_w : (tick s).w = s.w := rfl
@[simp] theorem tick_readBuf : (tick s).readBuf = s.readBuf := rfl
@[simp] theorem tick_nmiReq : (tick s).nmiReq = s.nmiReq := rfl
@[simp] theorem tick_ntLatch : (tick s).ntLatch = s.ntLatch := rfl
@[simp] theorem tick_atLatch : (tick s).atLatch = s.atLatch := rfl
@[simp] theorem tick_ptLo : (tick s).ptLo = s.ptLo := rfl
@[simp] theorem tick_ptHi : (tick s).ptHi = s.ptHi := rfl
@[simp] theorem tick_shLo : (tick s).shLo = s.shLo := rfl
@[simp] theorem tick_shHi : (tick s).shHi = s.shHi := rfl
@[simp] theorem tick_atShLo : (tick s).atShLo = s.atShLo := rfl
@[simp] theorem tick_atShHi : (tick s).atShHi = s.atShHi := rfl
@[simp] theorem tick_oam : (tick s).oam = s.oam := rfl
@[simp] theorem tick_sec : (tick s).sec = s.sec := rfl
@[simp] theorem tick_obuf : (tick s).obuf = s.obuf := rfl
@[simp] theorem tick_sprLo : (tick s).sprLo = s.sprLo := rfl
@[simp] theorem tick_pal : (tick s).pal = s.pal := rfl
@[simp] theorem tick_chr : (tick s).chr = s.chr := rfl
@[simp] theorem tick_nmt : (tick s).nmt = s.nmt := rfl
@[simp] theorem tick_mirror : (tick s).mirror = s.mirror := rfl
@[simp] theorem tick_lastBus : (tick s).lastBus = s.lastBus := rfl
@[simp] theorem tick_trace : (tick s).trace = s.trace := rfl
@[simp] theorem tick_out : (tick s).out = s.out := rfl
@[simp] theorem tick_outBound : (tick s).outBound = s.outBound := rfl
@[simp] theorem tick_refused : (tick s).refused = s.refused := rfl
@[simp] theorem tick_cfg : (tick s).cfg = s.cfg := rfl
@[simp] theorem tick_draws : (tick s).draws = s.draws := rfl
@[simp] theorem tick_inbox : (tick s).inbox = s.inbox := rfl
@[simp] theorem tick_reply : (tick s).reply = s.reply := rfl
@[simp] theorem tick_cpu : (tick s).cpu = s.cpu := rfl

end

/-! ### nmiEdge -/

section
variable (b s : State)

@[simp] theorem nmiEdge_line : (nmiEdge b s).line = s.line := rfl
@[simp] theorem nmiEdge_dot : (nmiEdge b s).dot = s.dot := rfl
@[simp] theorem nmiEdge_clock : (nmiEdge b s).clock = s.clock := rfl
@[simp] theorem nmiEdge_frame : (nmiEdge b s).frame = s.frame := rfl
@[simp] theorem nmiEdge_odd : (nmiEdge b s).odd = s.odd := rfl
@[simp] theorem nmiEdge_warmUp : (nmiEdge b s).warmUp = s.warmUp := rfl
@[simp] theorem nmiEdge_vblSuppress : (nmiEdge b s).vblSuppress = s.vblSuppress := rfl
@[simp] theorem nmiEdge_burstPhase : (nmiEdge b s).burstPhase = s.burstPhase := rfl
@[simp] theorem nmiEdge_latch : (nmiEdge b s).latch = s.latch := rfl
@[simp] theorem nmiEdge_ctrl : (nmiEdge b s).ctrl = s.ctrl := rfl
@[simp] theorem nmiEdge_mask : (nmiEdge b s).mask = s.mask := rfl
@[simp] theorem nmiEdge_vbl : (nmiEdge b s).vbl = s.vbl := rfl
@[simp] theorem nmiEdge_s0hit : (nmiEdge b s).s0hit = s.s0hit := rfl
@[simp] theorem nmiEdge_ovf : (nmiEdge b s).ovf = s.ovf := rfl
@[simp] theorem nmiEdge_oamAddr : (nmiEdge b s).oamAddr = s.oamAddr := rfl
@[simp] theorem nmiEdge_v : (nmiEdge b s).v = s.v := rfl
@[simp] theorem nmiEdge_t : (nmiEdge b s).t = s.t := rfl
@[simp] theorem nmiEdge_x : (nmiEdge b s).x = s.x := rfl
@[simp] theorem nmiEdge_w : (nmiEdge b s).w = s.w := rfl
@[simp] theorem nmiEdge_readBuf : (nmiEdge b s).readBuf = s.readBuf := rfl
@[simp] theorem nmiEdge_nmiReq : (nmiEdge b s).nmiReq = (s.nmiReq || (!b.nmiLine && s.nmiLine)) := rfl
@[simp] theorem nmiEdge_ntLatch : (nmiEdge b s).ntLatch = s.ntLatch := rfl
@[simp] theorem nmiEdge_atLatch : (nmiEdge b s).atLatch = s.atLatch := rfl
@[simp] theorem nmiEdge_ptLo : (nmiEdge b s).ptLo = s.ptLo := rfl
@[simp] theorem nmiEdge_ptHi : (nmiEdge b s).ptHi = s.ptHi := rfl
@[simp] theorem nmiEdge_shLo : (nmiEdge b s).shLo = s.shLo := rfl
@[simp] theorem nmiEdge_shHi : (nmiEdge b s).shHi = s.shHi := rfl
@[simp] theorem nmiEdge_atShLo : (nmiEdge b s).atShLo = s.atShLo := rfl
@[simp] theorem nmiEdge_atShHi : (nmiEdge b s).atShHi = s.atShHi := rfl
@[simp] theorem nmiEdge_oam : (nmiEdge b s).oam = s.oam := rfl
@[simp] theorem nmiEdge_sec : (nmiEdge b s).sec = s.sec := rfl
@[simp] theorem nmiEdge_obuf : (nmiEdge b s).obuf = s.obuf := rfl
@[simp] theorem nmiEdge_sprLo : (nmiEdge b s).sprLo = s.sprLo := rfl
@[simp] theorem nmiEdge_pal : (nmiEdge b s).pal = s.pal := rfl
@[simp] theorem nmiEdge_chr : (nmiEdge b s).chr = s.chr := rfl
@[simp] theorem nmiEdge_nmt : (nmiEdge b s).nmt = s.nmt := rfl
@[simp] theorem nmiEdge_mirror : (nmiEdge b s).mirror = s.mirror := rfl
@[simp] theorem nmiEdge_lastBus : (nmiEdge b s).lastBus = s.lastBus := rfl
@[simp] theorem nmiEdge_trace : (nmiEdge b s).trace = s.trace := rfl
@[simp] theorem nmiEdge_out : (nmiEdge b s).out = s.out := rfl
@[simp] theorem nmiEdge_outBound : (nmiEdge b s).outBound = s.outBound := rfl
@[simp] theorem nmiEdge_refused : (nmiEdge b s).refused = s.refused := rfl
@[simp] theorem nmiEdge_cfg : (nmiEdge b s).cfg = s.cfg := rfl
@[simp] theorem nmiEdge_draws : (nmiEdge b s).draws = s.draws := rfl
@[simp] theorem nmiEdge_inbox : (nmiEdge b s).inbox = s.inbox := rfl
@[simp] theorem nmiEdge_reply : (nmiEdge b s).reply = s.reply := rfl
@[simp] theorem nmiEdge_cpu : (nmiEdge b s).cpu = s.cpu := rfl

end

/-! ### emitBus -/

section
variable (a : BusAddr) (s : State)

@[simp] theorem emitBus_line : (emitBus a s).line = s.line := rfl
@[simp] theorem emitBus_dot : (emitBus a s).dot = s.dot := rfl
@[simp] theorem emitBus_clock : (emitBus a s).clock = s.clock := rfl
@[simp] theorem emitBus_frame : (emitBus a s).frame = s.frame := rfl
@[simp] theorem emitBus_odd : (emitBus a s).odd = s.odd := rfl
@[simp] theorem emitBus_warmUp : (emitBus a s).warmUp = s.warmUp := rfl
@[simp] theorem emitBus_vblSuppress : (emitBus a s).vblSuppress = s.vblSuppress := rfl
@[simp] theorem emitBus_burstPhase : (emitBus a s).burstPhase = s.burstPhase := rfl
@[simp] theorem emitBus_latch : (emitBus a s).latch = s.latch := rfl
@[simp] theorem emitBus_ctrl : (emitBus a s).ctrl = s.ctrl := rfl
@[simp] theorem emitBus_mask : (emitBus a s).mask = s.mask := rfl
@[simp] theorem emitBus_vbl : (emitBus a s).vbl = s.vbl := rfl
@[simp] theorem emitBus_s0hit : (emitBus a s).s0hit = s.s0hit := rfl
@[simp] theorem emitBus_ovf : (emitBus a s).ovf = s.ovf := rfl
@[simp] theorem emitBus_oamAddr : (emitBus a s).oamAddr = s.oamAddr := rfl
@[simp] theorem emitBus_v : (emitBus a s).v = s.v := rfl
@[simp] theorem emitBus_t : (emitBus a s).t = s.t := rfl
@[simp] theorem emitBus_x : (emitBus a s).x = s.x := rfl
@[simp] theorem emitBus_w : (emitBus a s).w = s.w := rfl
@[simp] theorem emitBus_readBuf : (emitBus a s).readBuf = s.readBuf := rfl
@[simp] theorem emitBus_nmiReq : (emitBus a s).nmiReq = s.nmiReq := rfl
@[simp] theorem emitBus_ntLatch : (emitBus a s).ntLatch = s.ntLatch := rfl
@[simp] theorem emitBus_atLatch : (emitBus a s).atLatch = s.atLatch := rfl
@[simp] theorem emitBus_ptLo : (emitBus a s).ptLo = s.ptLo := rfl
@[simp] theorem emitBus_ptHi : (emitBus a s).ptHi = s.ptHi := rfl
@[simp] theorem emitBus_shLo : (emitBus a s).shLo = s.shLo := rfl
@[simp] theorem emitBus_shHi : (emitBus a s).shHi = s.shHi := rfl
@[simp] theorem emitBus_atShLo : (emitBus a s).atShLo = s.atShLo := rfl
@[simp] theorem emitBus_atShHi : (emitBus a s).atShHi = s.atShHi := rfl
@[simp] theorem emitBus_oam : (emitBus a s).oam = s.oam := rfl
@[simp] theorem emitBus_sec : (emitBus a s).sec = s.sec := rfl
@[simp] theorem emitBus_obuf : (emitBus a s).obuf = s.obuf := rfl
@[simp] theorem emitBus_sprLo : (emitBus a s).sprLo = s.sprLo := rfl
@[simp] theorem emitBus_pal : (emitBus a s).pal = s.pal := rfl
@[simp] theorem emitBus_chr : (emitBus a s).chr = s.chr := rfl
@[simp] theorem emitBus_nmt : (emitBus a s).nmt = s.nmt := rfl
@[simp] theorem emitBus_mirror : (emitBus a s).mirror = s.mirror := rfl
@[simp] theorem emitBus_lastBus : (emitBus a s).lastBus = a := rfl
@[simp] theorem emitBus_trace : (emitBus a s).trace = s.trace ++ [{ clock := s.clock, addr := a, rise := !s.lastBus.getLsbD 12 && a.getLsbD 12 }] := rfl
@[simp] theorem emitBus_out : (emitBus a s).out = s.out := rfl
@[simp] theorem emitBus_outBound : (emitBus a s).outBound = s.outBound := rfl
@[simp] theorem emitBus_refused : (emitBus a s).refused = s.refused := rfl
@[simp] theorem emitBus_cfg : (emitBus a s).cfg = s.cfg := rfl
@[simp] theorem emitBus_draws : (emitBus a s).draws = s.draws := rfl
@[simp] theorem emitBus_inbox : (emitBus a s).inbox = s.inbox := rfl
@[simp] theorem emitBus_reply : (emitBus a s).reply = s.reply := rfl
@[simp] theorem emitBus_cpu : (emitBus a s).cpu = s.cpu := rfl

end

/-! ### latchByte -/

section
variable (d : Byte) (s : State)

@[simp] theorem latchByte_line : (latchByte d s).line = s.line := rfl
@[simp] theorem latchByte_dot : (latchByte d s).dot = s.dot := rfl
@[simp] theorem latchByte_clock : (latchByte d s).clock = s.clock := rfl
@[simp] theorem latchByte_frame : (latchByte d s).frame = s.frame := rfl
@[simp] theorem latchByte_odd : (latchByte d s).odd = s.odd := rfl
@[simp] theorem latchByte_warmUp : (latchByte d s).warmUp = s.warmUp := rfl
@[simp] theorem latchByte_vblSuppress : (latchByte d s).vblSuppress = s.vblSuppress := rfl
@[simp] theorem latchByte_burstPhase : (latchByte d s).burstPhase = s.burstPhase := rfl
@[simp] theorem latchByte_latch : (latchByte d s).latch = d := rfl
@[simp] theorem latchByte_ctrl : (latchByte d s).ctrl = s.ctrl := rfl
@[simp] theorem latchByte_mask : (latchByte d s).mask = s.mask := rfl
@[simp] theorem latchByte_vbl : (latchByte d s).vbl = s.vbl := rfl
@[simp] theorem latchByte_s0hit : (latchByte d s).s0hit = s.s0hit := rfl
@[simp] theorem latchByte_ovf : (latchByte d s).ovf = s.ovf := rfl
@[simp] theorem latchByte_oamAddr : (latchByte d s).oamAddr = s.oamAddr := rfl
@[simp] theorem latchByte_v : (latchByte d s).v = s.v := rfl
@[simp] theorem latchByte_t : (latchByte d s).t = s.t := rfl
@[simp] theorem latchByte_x : (latchByte d s).x = s.x := rfl
@[simp] theorem latchByte_w : (latchByte d s).w = s.w := rfl
@[simp] theorem latchByte_readBuf : (latchByte d s).readBuf = s.readBuf := rfl
@[simp] theorem latchByte_nmiReq : (latchByte d s).nmiReq = s.nmiReq := rfl
@[simp] theorem latchByte_ntLatch : (latchByte d s).ntLatch = s.ntLatch := rfl
@[simp] theorem latchByte_atLatch : (latchByte d s).atLatch = s.atLatch := rfl
@[simp] theorem latchByte_ptLo : (latchByte d s).ptLo = s.ptLo := rfl
@[simp] theorem latchByte_ptHi : (latchByte d s).ptHi = s.ptHi := rfl
@[simp] theorem latchByte_shLo : (latchByte d s).shLo = s.shLo := rfl
@[simp] theorem latchByte_shHi : (latchByte d s).shHi = s.shHi := rfl
@[simp] theorem latchByte_atShLo : (latchByte d s).atShLo = s.atShLo := rfl
@[simp] theorem latchByte_atShHi : (latchByte d s).atShHi = s.atShHi := rfl
@[simp] theorem latchByte_oam : (latchByte d s).oam = s.oam := rfl
@[simp] theorem latchByte_sec : (latchByte d s).sec = s.sec := rfl
@[simp] theorem latchByte_obuf : (latchByte d s).obuf = s.obuf := rfl
@[simp] theorem latchByte_sprLo : (latchByte d s).sprLo = s.sprLo := rfl
@[simp] theorem latchByte_pal : (latchByte d s).pal = s.pal := rfl
@[simp] theorem latchByte_chr : (latchByte d s).chr = s.chr := rfl
@[simp] theorem latchByte_nmt : (latchByte d s).nmt = s.nmt := rfl
@[simp] theorem latchByte_mirror : (latchByte d s).mirror = s.mirror := rfl
@[simp] theorem latchByte_lastBus : (latchByte d s).lastBus = s.lastBus := rfl
@[simp] theorem latchByte_trace : (latchByte d s).trace = s.trace := rfl
@[simp] theorem latchByte_out : (latchByte d s).out = s.out := rfl
@[simp] theorem latchByte_outBound : (latchByte d s).outBound = s.outBound := rfl
@[simp] theorem latchByte_refused : (latchByte d s).refused = s.refused := rfl
@[simp] theorem latchByte_cfg : (latchByte d s).cfg = s.cfg := rfl
@[simp] theorem latchByte_draws : (latchByte d s).draws = s.draws := rfl
@[simp] theorem latchByte_inbox : (latchByte d s).inbox = s.inbox := rfl
@[simp] theorem latchByte_reply : (latchByte d s).reply = s.reply := rfl
@[simp] theorem latchByte_cpu : (latchByte d s).cpu = s.cpu := rfl

end

/-! ### setChr -/

section
variable (c : Substrate) (s : State)

@[simp] theorem setChr_line : (s.setSub .chr c).line = s.line := rfl
@[simp] theorem setChr_dot : (s.setSub .chr c).dot = s.dot := rfl
@[simp] theorem setChr_clock : (s.setSub .chr c).clock = s.clock := rfl
@[simp] theorem setChr_frame : (s.setSub .chr c).frame = s.frame := rfl
@[simp] theorem setChr_odd : (s.setSub .chr c).odd = s.odd := rfl
@[simp] theorem setChr_warmUp : (s.setSub .chr c).warmUp = s.warmUp := rfl
@[simp] theorem setChr_vblSuppress : (s.setSub .chr c).vblSuppress = s.vblSuppress := rfl
@[simp] theorem setChr_burstPhase : (s.setSub .chr c).burstPhase = s.burstPhase := rfl
@[simp] theorem setChr_latch : (s.setSub .chr c).latch = s.latch := rfl
@[simp] theorem setChr_ctrl : (s.setSub .chr c).ctrl = s.ctrl := rfl
@[simp] theorem setChr_mask : (s.setSub .chr c).mask = s.mask := rfl
@[simp] theorem setChr_vbl : (s.setSub .chr c).vbl = s.vbl := rfl
@[simp] theorem setChr_s0hit : (s.setSub .chr c).s0hit = s.s0hit := rfl
@[simp] theorem setChr_ovf : (s.setSub .chr c).ovf = s.ovf := rfl
@[simp] theorem setChr_oamAddr : (s.setSub .chr c).oamAddr = s.oamAddr := rfl
@[simp] theorem setChr_v : (s.setSub .chr c).v = s.v := rfl
@[simp] theorem setChr_t : (s.setSub .chr c).t = s.t := rfl
@[simp] theorem setChr_x : (s.setSub .chr c).x = s.x := rfl
@[simp] theorem setChr_w : (s.setSub .chr c).w = s.w := rfl
@[simp] theorem setChr_readBuf : (s.setSub .chr c).readBuf = s.readBuf := rfl
@[simp] theorem setChr_nmiReq : (s.setSub .chr c).nmiReq = s.nmiReq := rfl
@[simp] theorem setChr_ntLatch : (s.setSub .chr c).ntLatch = s.ntLatch := rfl
@[simp] theorem setChr_atLatch : (s.setSub .chr c).atLatch = s.atLatch := rfl
@[simp] theorem setChr_ptLo : (s.setSub .chr c).ptLo = s.ptLo := rfl
@[simp] theorem setChr_ptHi : (s.setSub .chr c).ptHi = s.ptHi := rfl
@[simp] theorem setChr_shLo : (s.setSub .chr c).shLo = s.shLo := rfl
@[simp] theorem setChr_shHi : (s.setSub .chr c).shHi = s.shHi := rfl
@[simp] theorem setChr_atShLo : (s.setSub .chr c).atShLo = s.atShLo := rfl
@[simp] theorem setChr_atShHi : (s.setSub .chr c).atShHi = s.atShHi := rfl
@[simp] theorem setChr_oam : (s.setSub .chr c).oam = s.oam := rfl
@[simp] theorem setChr_sec : (s.setSub .chr c).sec = s.sec := rfl
@[simp] theorem setChr_obuf : (s.setSub .chr c).obuf = s.obuf := rfl
@[simp] theorem setChr_sprLo : (s.setSub .chr c).sprLo = s.sprLo := rfl
@[simp] theorem setChr_pal : (s.setSub .chr c).pal = s.pal := rfl
@[simp] theorem setChr_chr : (s.setSub .chr c).chr = c := rfl
@[simp] theorem setChr_nmt : (s.setSub .chr c).nmt = s.nmt := rfl
@[simp] theorem setChr_mirror : (s.setSub .chr c).mirror = s.mirror := rfl
@[simp] theorem setChr_lastBus : (s.setSub .chr c).lastBus = s.lastBus := rfl
@[simp] theorem setChr_trace : (s.setSub .chr c).trace = s.trace := rfl
@[simp] theorem setChr_out : (s.setSub .chr c).out = s.out := rfl
@[simp] theorem setChr_outBound : (s.setSub .chr c).outBound = s.outBound := rfl
@[simp] theorem setChr_refused : (s.setSub .chr c).refused = s.refused := rfl
@[simp] theorem setChr_cfg : (s.setSub .chr c).cfg = s.cfg := rfl
@[simp] theorem setChr_draws : (s.setSub .chr c).draws = s.draws := rfl
@[simp] theorem setChr_inbox : (s.setSub .chr c).inbox = s.inbox := rfl
@[simp] theorem setChr_reply : (s.setSub .chr c).reply = s.reply := rfl
@[simp] theorem setChr_cpu : (s.setSub .chr c).cpu = s.cpu := rfl

end

/-! ### setNmt -/

section
variable (c : Substrate) (s : State)

@[simp] theorem setNmt_line : (s.setSub .nmt c).line = s.line := rfl
@[simp] theorem setNmt_dot : (s.setSub .nmt c).dot = s.dot := rfl
@[simp] theorem setNmt_clock : (s.setSub .nmt c).clock = s.clock := rfl
@[simp] theorem setNmt_frame : (s.setSub .nmt c).frame = s.frame := rfl
@[simp] theorem setNmt_odd : (s.setSub .nmt c).odd = s.odd := rfl
@[simp] theorem setNmt_warmUp : (s.setSub .nmt c).warmUp = s.warmUp := rfl
@[simp] theorem setNmt_vblSuppress : (s.setSub .nmt c).vblSuppress = s.vblSuppress := rfl
@[simp] theorem setNmt_burstPhase : (s.setSub .nmt c).burstPhase = s.burstPhase := rfl
@[simp] theorem setNmt_latch : (s.setSub .nmt c).latch = s.latch := rfl
@[simp] theorem setNmt_ctrl : (s.setSub .nmt c).ctrl = s.ctrl := rfl
@[simp] theorem setNmt_mask : (s.setSub .nmt c).mask = s.mask := rfl
@[simp] theorem setNmt_vbl : (s.setSub .nmt c).vbl = s.vbl := rfl
@[simp] theorem setNmt_s0hit : (s.setSub .nmt c).s0hit = s.s0hit := rfl
@[simp] theorem setNmt_ovf : (s.setSub .nmt c).ovf = s.ovf := rfl
@[simp] theorem setNmt_oamAddr : (s.setSub .nmt c).oamAddr = s.oamAddr := rfl
@[simp] theorem setNmt_v : (s.setSub .nmt c).v = s.v := rfl
@[simp] theorem setNmt_t : (s.setSub .nmt c).t = s.t := rfl
@[simp] theorem setNmt_x : (s.setSub .nmt c).x = s.x := rfl
@[simp] theorem setNmt_w : (s.setSub .nmt c).w = s.w := rfl
@[simp] theorem setNmt_readBuf : (s.setSub .nmt c).readBuf = s.readBuf := rfl
@[simp] theorem setNmt_nmiReq : (s.setSub .nmt c).nmiReq = s.nmiReq := rfl
@[simp] theorem setNmt_ntLatch : (s.setSub .nmt c).ntLatch = s.ntLatch := rfl
@[simp] theorem setNmt_atLatch : (s.setSub .nmt c).atLatch = s.atLatch := rfl
@[simp] theorem setNmt_ptLo : (s.setSub .nmt c).ptLo = s.ptLo := rfl
@[simp] theorem setNmt_ptHi : (s.setSub .nmt c).ptHi = s.ptHi := rfl
@[simp] theorem setNmt_shLo : (s.setSub .nmt c).shLo = s.shLo := rfl
@[simp] theorem setNmt_shHi : (s.setSub .nmt c).shHi = s.shHi := rfl
@[simp] theorem setNmt_atShLo : (s.setSub .nmt c).atShLo = s.atShLo := rfl
@[simp] theorem setNmt_atShHi : (s.setSub .nmt c).atShHi = s.atShHi := rfl
@[simp] theorem setNmt_oam : (s.setSub .nmt c).oam = s.oam := rfl
@[simp] theorem setNmt_sec : (s.setSub .nmt c).sec = s.sec := rfl
@[simp] theorem setNmt_obuf : (s.setSub .nmt c).obuf = s.obuf := rfl
@[simp] theorem setNmt_sprLo : (s.setSub .nmt c).sprLo = s.sprLo := rfl
@[simp] theorem setNmt_pal : (s.setSub .nmt c).pal = s.pal := rfl
@[simp] theorem setNmt_chr : (s.setSub .nmt c).chr = s.chr := rfl
@[simp] theorem setNmt_nmt : (s.setSub .nmt c).nmt = c := rfl
@[simp] theorem setNmt_mirror : (s.setSub .nmt c).mirror = s.mirror := rfl
@[simp] theorem setNmt_lastBus : (s.setSub .nmt c).lastBus = s.lastBus := rfl
@[simp] theorem setNmt_trace : (s.setSub .nmt c).trace = s.trace := rfl
@[simp] theorem setNmt_out : (s.setSub .nmt c).out = s.out := rfl
@[simp] theorem setNmt_outBound : (s.setSub .nmt c).outBound = s.outBound := rfl
@[simp] theorem setNmt_refused : (s.setSub .nmt c).refused = s.refused := rfl
@[simp] theorem setNmt_cfg : (s.setSub .nmt c).cfg = s.cfg := rfl
@[simp] theorem setNmt_draws : (s.setSub .nmt c).draws = s.draws := rfl
@[simp] theorem setNmt_inbox : (s.setSub .nmt c).inbox = s.inbox := rfl
@[simp] theorem setNmt_reply : (s.setSub .nmt c).reply = s.reply := rfl
@[simp] theorem setNmt_cpu : (s.setSub .nmt c).cpu = s.cpu := rfl

end

/-! ### Derived conditions read through the updates -/

@[simp] theorem answer_renderActive (r : Reply) (s : State) : (answer r s).renderActive = s.renderActive := rfl
@[simp] theorem answer_nmiLine (r : Reply) (s : State) : (answer r s).nmiLine = s.nmiLine := rfl
@[simp] theorem tick_nmiLine (s : State) : (tick s).nmiLine = s.nmiLine := rfl
@[simp] theorem nmiEdge_nmiLine (b s : State) : (nmiEdge b s).nmiLine = s.nmiLine := rfl
@[simp] theorem nmiEdge_renderActive (b s : State) : (nmiEdge b s).renderActive = s.renderActive := rfl
@[simp] theorem emitBus_renderActive (a : BusAddr) (s : State) : (emitBus a s).renderActive = s.renderActive := rfl
@[simp] theorem emitBus_nmiLine (a : BusAddr) (s : State) : (emitBus a s).nmiLine = s.nmiLine := rfl
@[simp] theorem latchByte_renderActive (d : Byte) (s : State) : (latchByte d s).renderActive = s.renderActive := rfl
@[simp] theorem latchByte_nmiLine (d : Byte) (s : State) : (latchByte d s).nmiLine = s.nmiLine := rfl
@[simp] theorem emitBus_sub (a : BusAddr) (s : State) (x : Sub) : (emitBus a s).sub x = s.sub x := by cases x <;> rfl

/-- The substrate put in is the substrate read back. -/
@[simp] theorem sub_setSub_same (s : State) (x : Sub) (c : Substrate) : (s.setSub x c).sub x = c := by cases x <;> rfl

/-- The other substrate is untouched. -/
theorem sub_setSub_ne (s : State) {x y : Sub} (c : Substrate) (h : x ≠ y) : (s.setSub x c).sub y = s.sub y := by
  cases x <;> cases y <;> first | rfl | exact absurd rfl h

/-- Putting the substrate that is there changes nothing. -/
@[simp] theorem setSub_self (s : State) (x : Sub) : s.setSub x (s.sub x) = s := by cases x <;> rfl

/-- The edge rule of an operation that leaves `nmiLine` as it was changes nothing. -/
theorem nmiEdge_of_eq {b s : State} (h : s.nmiLine = b.nmiLine) : nmiEdge b s = s := by
  cases s; simp_all [nmiEdge]

/-- An operation followed by the edge rule, when `nmiLine` falls or stays low. -/
theorem nmiEdge_of_low {b s : State} (h : s.nmiLine = false) : nmiEdge b s = s := by
  cases s; simp_all [nmiEdge]

end Sys2Proof.Machine
end

