-- ==== Sys2Proof/Laws/Store.lean ====
section
/-! SUPPORT. The laws of memory: a read after a write, and that every memory operation keeps the canonical form. -/

namespace Sys2Proof

variable {w : Nat} {α : Type}

/-! ### Cells -/

theorem Cells.rising_mono {lo lo' : Nat} (h : lo' ≤ lo) :
    ∀ {cells : List (Nat × α)}, Cells.rising lo cells = true → Cells.rising lo' cells = true
  | [], _ => rfl
  | (k, _) :: rest, hr => by
    simp only [Cells.rising, Bool.and_eq_true, decide_eq_true_eq] at hr ⊢
    exact ⟨h.trans hr.1, hr.2⟩

theorem Cells.get_below {lo a : Nat} (h : a < lo) :
    ∀ {cells : List (Nat × α)}, Cells.rising lo cells = true → Cells.get cells a = none
  | [], _ => rfl
  | (k, _) :: rest, hr => by
    simp only [Cells.rising, Bool.and_eq_true, decide_eq_true_eq] at hr
    rw [Cells.get, if_neg (by omega), Cells.get_below (by omega) hr.2]

theorem Cells.get_put (a b : Nat) (v : α) :
    ∀ cells : List (Nat × α), Cells.get (Cells.put cells a v) b = if a = b then some v else Cells.get cells b
  | [] => rfl
  | (k, u) :: rest => by
    unfold Cells.put
    split
    · rfl
    · split
      · subst a; by_cases h : k = b <;> simp [Cells.get, h]
      · by_cases h : k = b
        · subst k; simp [Cells.get, show a ≠ b by omega]
        · simp [Cells.get, h, Cells.get_put a b v rest]

theorem Cells.get_del_ne {a b : Nat} (h : a ≠ b) :
    ∀ cells : List (Nat × α), Cells.get (Cells.del cells a) b = Cells.get cells b
  | [] => rfl
  | (k, u) :: rest => by
    unfold Cells.del
    split
    · subst k; simp [Cells.get, h]
    · by_cases h' : k = b <;> simp [Cells.get, h', Cells.get_del_ne h rest]

theorem Cells.get_del_same {lo : Nat} (a : Nat) :
    ∀ {cells : List (Nat × α)}, Cells.rising lo cells = true → Cells.get (Cells.del cells a) a = none
  | [], _ => rfl
  | (k, u) :: rest, hr => by
    simp only [Cells.rising, Bool.and_eq_true, decide_eq_true_eq] at hr
    unfold Cells.del
    split
    · subst k; exact Cells.get_below (Nat.lt_succ_self a) hr.2
    · rename_i h
      rw [Cells.get, if_neg (by omega), Cells.get_del_same a hr.2]

theorem Cells.rising_put {lo a : Nat} (v : α) (h : lo ≤ a) :
    ∀ {cells : List (Nat × α)}, Cells.rising lo cells = true → Cells.rising lo (Cells.put cells a v) = true
  | [], _ => by simp [Cells.put, Cells.rising, h]
  | (k, u) :: rest, hr => by
    simp only [Cells.rising, Bool.and_eq_true, decide_eq_true_eq] at hr
    unfold Cells.put
    split
    · simp only [Cells.rising, Bool.and_eq_true, decide_eq_true_eq]; exact ⟨h, by omega, hr.2⟩
    · split
      · subst k; simp only [Cells.rising, Bool.and_eq_true, decide_eq_true_eq]; exact ⟨h, hr.2⟩
      · simp only [Cells.rising, Bool.and_eq_true, decide_eq_true_eq]
        exact ⟨hr.1, Cells.rising_put v (by omega) hr.2⟩

theorem Cells.rising_del {lo : Nat} (a : Nat) :
    ∀ {cells : List (Nat × α)}, Cells.rising lo cells = true → Cells.rising lo (Cells.del cells a) = true
  | [], _ => rfl
  | (k, u) :: rest, hr => by
    simp only [Cells.rising, Bool.and_eq_true, decide_eq_true_eq] at hr
    unfold Cells.del
    split
    · exact Cells.rising_mono (by omega) hr.2
    · simp only [Cells.rising, Bool.and_eq_true, decide_eq_true_eq]
      exact ⟨hr.1, Cells.rising_del a hr.2⟩

theorem Cells.mem_put {a : Nat} {v : α} {c : Nat × α} :
    ∀ {cells : List (Nat × α)}, c ∈ Cells.put cells a v → c = (a, v) ∨ c ∈ cells
  | [], h => by simpa [Cells.put] using h
  | (k, u) :: rest, h => by
    unfold Cells.put at h
    split at h
    · simpa using h
    · split at h
      · rcases List.mem_cons.mp h with h | h
        · exact .inl h
        · exact .inr (List.mem_cons_of_mem _ h)
      · rcases List.mem_cons.mp h with h | h
        · exact .inr (h ▸ List.mem_cons_self)
        · exact (Cells.mem_put h).imp id (List.mem_cons_of_mem _)

theorem Cells.mem_del {a : Nat} {c : Nat × α} :
    ∀ {cells : List (Nat × α)}, c ∈ Cells.del cells a → c ∈ cells
  | [], h => h
  | (k, u) :: rest, h => by
    unfold Cells.del at h
    split at h
    · exact List.mem_cons_of_mem _ h
    · rcases List.mem_cons.mp h with h | h
      · exact h ▸ List.mem_cons_self
      · exact List.mem_cons_of_mem _ (Cells.mem_del h)

/-! ### Reading and writing -/

/-- A store in canonical form lists its addresses in rising order. -/
theorem Store.wf_rising {m : Store w} (h : m.wf = true) : Cells.rising 0 m.cells = true := by
  simp only [Store.wf, Bool.and_eq_true] at h; exact h.1

@[simp] theorem Store.write_fill (m : Store w) (a : Nat) (v : BitVec w) : (m.write a v).fill = m.fill := rfl

@[simp] theorem Store.unlisted_write (m : Store w) (a b : Nat) (v : BitVec w) :
    (m.write a v).unlisted b = m.unlisted b := rfl

/-- A value that is not listed because the fill already gives it is what the fill gives. -/
theorem Store.unlisted_of_isFill {m : Store w} {v : BitVec w} (h : m.isFill v = true) (a : Nat) : m.unlisted a = v := by
  unfold Store.isFill at h
  unfold Store.unlisted
  split at h
  · exact (beq_iff_eq.mp h).symm
  · cases h

/-- A read of another address sees nothing of a write. -/
theorem Store.read_write_ne (m : Store w) {a b : Nat} (v : BitVec w) (h : a ≠ b) : (m.write a v).read b = m.read b := by
  unfold Store.read
  rw [Store.unlisted_write]
  unfold Store.write
  dsimp only
  split
  · rw [Cells.get_del_ne h]
  · rw [Cells.get_put, if_neg h]

/-- A read of the address written gives the value written. -/
theorem Store.read_write_same {m : Store w} (hm : m.wf = true) (a : Nat) (v : BitVec w) : (m.write a v).read a = v := by
  unfold Store.read
  rw [Store.unlisted_write]
  unfold Store.write
  dsimp only
  split
  · rename_i h
    rw [Cells.get_del_same a (Store.wf_rising hm), Option.getD_none, Store.unlisted_of_isFill h]
  · rw [Cells.get_put, if_pos rfl, Option.getD_some]

/-- Every read after a write. -/
theorem Store.read_write {m : Store w} (hm : m.wf = true) (a b : Nat) (v : BitVec w) :
    (m.write a v).read b = if a = b then v else m.read b := by
  split
  · subst b; exact Store.read_write_same hm a v
  · exact Store.read_write_ne m v ‹_›

/-! ### The canonical form is kept -/

@[simp] theorem Store.isFill_write (m : Store w) (a : Nat) (u v : BitVec w) : (m.write a u).isFill v = m.isFill v := rfl

/-- A write keeps the canonical form. -/
theorem Store.write_wf {m : Store w} (hm : m.wf = true) (a : Nat) (v : BitVec w) : (m.write a v).wf = true := by
  have hr := Store.wf_rising hm
  simp only [Store.wf, Bool.and_eq_true, List.all_eq_true, Store.isFill_write] at hm ⊢
  unfold Store.write
  dsimp only
  split
  · exact ⟨Cells.rising_del a hr, fun c hc => hm.2 c (Cells.mem_del hc)⟩
  · rename_i hv
    refine ⟨Cells.rising_put v (Nat.zero_le a) hr, fun c hc => ?_⟩
    rcases Cells.mem_put hc with rfl | hc
    · simpa using hv
    · exact hm.2 c hc

/-- A write below `n` keeps every listed address below `n`. -/
theorem Store.write_below {m : Store w} {n a : Nat} (hm : m.below n = true) (ha : a < n) (v : BitVec w) :
    (m.write a v).below n = true := by
  simp only [Store.below, List.all_eq_true, decide_eq_true_eq] at hm ⊢
  intro c hc
  unfold Store.write at hc
  dsimp only at hc
  split at hc
  · exact hm c (Cells.mem_del hc)
  · rcases Cells.mem_put hc with rfl | hc
    · exact ha
    · exact hm c hc

@[simp] theorem Store.blank_wf (c : BitVec w) : (Store.blank c).wf = true := rfl

@[simp] theorem Store.drawn_wf (base : Nat) : (Store.drawn base : Store w).wf = true := rfl

@[simp] theorem Store.blank_below (c : BitVec w) (n : Nat) : (Store.blank c).below n = true := rfl

@[simp] theorem Store.drawn_below (base n : Nat) : (Store.drawn base : Store w).below n = true := rfl

@[simp] theorem Store.read_blank (c : BitVec w) (a : Nat) : (Store.blank c).read a = c := rfl

/-! ### Stores of byte sequences -/

theorem Cells.rising_ofBytes : ∀ (i : Nat) (bytes : List (BitVec w)), Cells.rising i (Cells.ofBytes i bytes) = true
  | _, [] => rfl
  | i, b :: rest => by
    unfold Cells.ofBytes
    split
    · exact Cells.rising_mono (Nat.le_succ i) (Cells.rising_ofBytes (i + 1) rest)
    · simp [Cells.rising, Cells.rising_ofBytes (i + 1) rest]

theorem Cells.mem_ofBytes {c : Nat × BitVec w} :
    ∀ {i : Nat} {bytes : List (BitVec w)}, c ∈ Cells.ofBytes i bytes →
      c.2 ≠ 0 ∧ i ≤ c.1 ∧ bytes[c.1 - i]? = some c.2
  | _, [], h => by simp [Cells.ofBytes] at h
  | i, b :: rest, h => by
    have step : c ∈ Cells.ofBytes (i + 1) rest → c.2 ≠ 0 ∧ i ≤ c.1 ∧ (b :: rest)[c.1 - i]? = some c.2 := fun h => by
      obtain ⟨h0, hi, hb⟩ := Cells.mem_ofBytes h
      refine ⟨h0, by omega, ?_⟩
      rw [show c.1 - i = (c.1 - (i + 1)) + 1 by omega, List.getElem?_cons_succ, hb]
    unfold Cells.ofBytes at h
    split at h
    · exact step h
    · rename_i hb
      rcases List.mem_cons.mp h with rfl | h
      · exact ⟨hb, Nat.le_refl i, by simp⟩
      · exact step h

/-- The store of a byte sequence is in canonical form. -/
theorem Store.ofBytes_wf (bytes : List (BitVec w)) : (Store.ofBytes bytes).wf = true := by
  simp only [Store.wf, Bool.and_eq_true, List.all_eq_true]
  refine ⟨Cells.rising_ofBytes 0 bytes, fun c hc => ?_⟩
  simpa [Store.isFill, Store.ofBytes] using (Cells.mem_ofBytes hc).1

/-- The store of a byte sequence lists nothing past its end. -/
theorem Store.ofBytes_below (bytes : List (BitVec w)) : (Store.ofBytes bytes).below bytes.length = true := by
  simp only [Store.below, List.all_eq_true, decide_eq_true_eq]
  intro c hc
  obtain ⟨-, -, h⟩ := Cells.mem_ofBytes hc
  exact (List.getElem?_eq_some_iff.mp h).1

theorem Cells.get_ofBytes :
    ∀ (i a : Nat) (bytes : List (BitVec w)), i ≤ a →
      (Cells.get (Cells.ofBytes i bytes) a).getD 0 = (bytes[a - i]?).getD 0
  | _, _, [], _ => by simp [Cells.ofBytes, Cells.get]
  | i, a, b :: rest, h => by
    unfold Cells.ofBytes
    by_cases ha : a = i
    · subst a
      split
      · rename_i hb
        rw [Cells.get_below (Nat.lt_succ_self i) (Cells.rising_ofBytes (i + 1) rest)]
        simpa using hb.symm
      · simp [Cells.get]
    · have ih := Cells.get_ofBytes (i + 1) a rest (by omega)
      rw [show a - i = (a - (i + 1)) + 1 by omega, List.getElem?_cons_succ, ← ih]
      split
      · rfl
      · rw [Cells.get, if_neg (fun e => ha e.symm)]

/-- The store of a byte sequence reads back the sequence, and 0 past it. -/
theorem Store.read_ofBytes (bytes : List (BitVec w)) (a : Nat) : (Store.ofBytes bytes).read a = (bytes[a]?).getD 0 := by
  simpa [Store.read, Store.unlisted, Store.ofBytes] using Cells.get_ofBytes 0 a bytes (Nat.zero_le a)

@[simp] theorem Store.length_toBytes (m : Store w) (n : Nat) : (m.toBytes n).length = n := by simp [Store.toBytes]

theorem Store.getElem?_toBytes {m : Store w} {n a : Nat} (h : a < n) : (m.toBytes n)[a]? = some (m.read a) := by
  simp [Store.toBytes, h]

end Sys2Proof
end

