-- ==== Sys2Proof/Laws/Ops.lean ====
section
/-! SUPPORT. What each shared operation can do, said once: which fields it moves, and what it reads or writes. -/

namespace Sys2Proof.Machine

/-! ### Draws and reads move the draw counter only -/

theorem drawByte_snd (s : State) : (drawByte s).2 = { s with draws := s.draws + 1 } := rfl

theorem drawBit_snd (s : State) : (drawBit s).2 = { s with draws := s.draws + 1 } := rfl

/-- `Peek` changes no block state (R154): only the model's draw counter can move. -/
theorem peekSub_snd (x : Sub) (a : Nat) (s : State) : ∃ n, (peekSub x a s).2 = { s with draws := n } := by
  unfold peekSub
  dsimp only
  split
  · exact ⟨_, rfl⟩
  · split
    · exact ⟨s.draws, rfl⟩
    · exact ⟨_, rfl⟩

/-- `Peek` of an unhooked, readable page gives the byte the address resolves to (R154). -/
theorem peekSub_of_readable {x : Sub} {a : Nat} {s : State}
    (hh : (s.sub x).hook ((s.sub x).resolve a).1 = none)
    (hr : ((s.sub x).source ((s.sub x).resolve a).2.1).readable = true) :
    peekSub x a s = ((s.sub x).byteAt a, s) := by
  unfold peekSub
  dsimp only
  split
  · rename_i h heq; rw [hh] at heq; cases heq
  · exact if_pos hr

/-- `PpuRead` changes no block state (R85, R103). -/
theorem ppuRead_snd (a : BusAddr) (s : State) : ∃ n, (ppuRead a s).2 = { s with draws := n } := by
  unfold ppuRead
  split
  · exact peekSub_snd ..
  · split
    · exact peekSub_snd ..
    · exact ⟨s.draws, rfl⟩

/-- A bus event is not seen by the read that follows it. -/
theorem peekSub_emitBus_fst (x : Sub) (a : Nat) (b : BusAddr) (s : State) :
    (peekSub x a (emitBus b s)).1 = (peekSub x a s).1 := by
  unfold peekSub
  rw [emitBus_sub]
  dsimp only
  split
  · rfl
  · split <;> rfl

/-- A bus event is not seen by the read that follows it. -/
theorem ppuRead_emitBus_fst (a b : BusAddr) (s : State) : (ppuRead a (emitBus b s)).1 = (ppuRead a s).1 := by
  unfold ppuRead
  split
  · exact peekSub_emitBus_fst ..
  · split
    · exact peekSub_emitBus_fst ..
    · rfl

/-- A bus event does not change how many draws a read takes. -/
theorem peekSub_emitBus_draws (x : Sub) (a : Nat) (b : BusAddr) (s : State) :
    (peekSub x a (emitBus b s)).2 = emitBus b (peekSub x a s).2 := by
  unfold peekSub
  rw [emitBus_sub]
  dsimp only
  split
  · rfl
  · split <;> rfl

/-- A read and the bus event before it commute. -/
theorem ppuRead_emitBus_snd (a b : BusAddr) (s : State) : (ppuRead a (emitBus b s)).2 = emitBus b (ppuRead a s).2 := by
  unfold ppuRead
  split
  · exact peekSub_emitBus_draws ..
  · split
    · exact peekSub_emitBus_draws ..
    · rfl

/-- A rendering fetch gives the byte at its address, puts the address on the bus, and moves nothing else but the draw
counter (R376). -/
theorem busFetch_eq (a : BusAddr) (s : State) :
    ∃ n, busFetch a s = ((ppuRead a s).1, { emitBus a s with draws := n }) := by
  obtain ⟨n, hn⟩ := ppuRead_snd a (emitBus a s)
  exact ⟨n, Prod.ext (ppuRead_emitBus_fst a a s) hn⟩

/-- The state after a rendering fetch. -/
theorem busFetch_snd (a : BusAddr) (s : State) : ∃ n, (busFetch a s).2 = { emitBus a s with draws := n } :=
  ppuRead_snd a (emitBus a s)

/-- A CPU read for DMA moves the draw counter only. -/
theorem cpuRead_snd (a : CpuAddr) (s : State) : ∃ n, (cpuRead a s).2 = { s with draws := n } := by
  unfold cpuRead
  split
  · exact ⟨s.draws, rfl⟩
  · exact ⟨_, rfl⟩

/-! ### Address resolution -/

theorem isPow2_pos {n : Nat} (h : isPow2 n = true) : 0 < n := by
  simp only [isPow2, Bool.and_eq_true, decide_eq_true_eq] at h; omega

/-- The facts a well-formed substrate carries. -/
theorem Substrate.wf_iff {c : Substrate} : c.wf = true ↔
    isPow2 c.space = true ∧ isPow2 c.page = true ∧ c.space % c.page = 0 ∧ c.pt.length = c.npages ∧
      c.hooks.length = c.npages ∧ (∀ e ∈ c.pt, e.src < c.nsrc) ∧ ∀ src ∈ c.srcs, src.wf = true := by
  simp only [Substrate.wf, Bool.and_eq_true, List.all_eq_true, decide_eq_true_eq, and_assoc]

/-- The page of an address is a page of the substrate (R93). -/
theorem Substrate.pageOf_lt {c : Substrate} (h : c.wf = true) (a : Nat) : c.pageOf a < c.npages := by
  obtain ⟨hs, hp, hm, -⟩ := Substrate.wf_iff.mp h
  have hs := isPow2_pos hs
  have hp := isPow2_pos hp
  unfold Substrate.pageOf Substrate.npages
  have : a &&& (c.space - 1) < c.space := Nat.lt_of_le_of_lt Nat.and_le_right (by omega)
  exact Nat.div_lt_div_of_lt_of_dvd (Nat.dvd_of_mod_eq_zero hm) this

@[simp] theorem Substrate.resolve_fst (c : Substrate) (a : Nat) : (c.resolve a).1 = c.pageOf a := rfl

/-- An address resolves to a source that exists (R92, R93). -/
theorem Substrate.resolve_src_lt {c : Substrate} (h : c.wf = true) (a : Nat) : (c.resolve a).2.1 < c.nsrc := by
  have hp := Substrate.pageOf_lt h a
  obtain ⟨-, -, -, hl, -, he, -⟩ := Substrate.wf_iff.mp h
  have hp' : c.pageOf a < c.pt.length := by omega
  have : (c.resolve a).2.1 = (c.pt[c.pageOf a]).src := by
    simp [Substrate.resolve, List.getD_eq_getElem?_getD, List.getElem?_eq_getElem hp']
  rw [this]
  exact he _ (List.getElem_mem hp')

theorem Substrate.source_of_writable {c : Substrate} {i : Nat} (h : (c.source i).writable = true) :
    i < c.srcs.length := by
  by_contra hi
  simp [Substrate.source, List.getD_eq_getElem?_getD, List.getElem?_eq_none (Nat.not_lt.mp hi), placeholderSource] at h

theorem Substrate.source_wf {c : Substrate} (h : c.wf = true) (i : Nat) : (c.source i).wf = true := by
  obtain ⟨-, -, -, -, -, -, hs⟩ := Substrate.wf_iff.mp h
  by_cases hi : i < c.srcs.length
  · rw [Substrate.source, List.getD_eq_getElem?_getD, List.getElem?_eq_getElem hi]
    exact hs _ (List.getElem_mem hi)
  · rw [Substrate.source, List.getD_eq_getElem?_getD, List.getElem?_eq_none (Nat.not_lt.mp hi)]
    rfl

/-! ### `Poke` -/

/-- A `Poke` changes the bytes of at most one source, and nothing else of the substrate (R155). -/
theorem Substrate.pokeByte_cases (c : Substrate) (a : Nat) (d : Byte) :
    ((c.source (c.resolve a).2.1).writable = false ∧ c.pokeByte a d = c) ∨
    ((c.source (c.resolve a).2.1).writable = true ∧
      c.pokeByte a d =
        c.setBytes (c.resolve a).2.1 ((c.source (c.resolve a).2.1).bytes.write (c.resolve a).2.2 d)) := by
  unfold Substrate.pokeByte
  dsimp only
  split
  · exact .inr ⟨‹_›, rfl⟩
  · exact .inl ⟨Bool.not_eq_true _ ▸ ‹_›, rfl⟩

theorem Substrate.source_setBytes {c : Substrate} {i : Nat} (hi : i < c.srcs.length) (bytes : Store 8) (j : Nat) :
    (c.setBytes i bytes).source j = if i = j then { c.source j with bytes } else c.source j := by
  unfold Substrate.setBytes Substrate.source
  simp only [List.getD_eq_getElem?_getD, List.getElem?_set]
  split
  · subst j; simp [hi]
  · rfl

/-- A change of a source's bytes leaves address resolution as it was. -/
theorem Substrate.resolve_setBytes {c : Substrate} {i : Nat} (hi : i < c.srcs.length) (bytes : Store 8) (a : Nat) :
    (c.setBytes i bytes).resolve a = c.resolve a := by
  have hm : ∀ j, ((c.setBytes i bytes).source j).mask = (c.source j).mask := fun j => by
    rw [Substrate.source_setBytes hi]; split <;> rfl
  unfold Substrate.resolve
  dsimp only
  rw [hm]
  rfl

/-- A `Poke` leaves address resolution as it was. -/
theorem Substrate.resolve_pokeByte (c : Substrate) (a b : Nat) (d : Byte) : (c.pokeByte a d).resolve b = c.resolve b := by
  rcases Substrate.pokeByte_cases c a d with ⟨-, h⟩ | ⟨hw, h⟩
  · rw [h]
  · rw [h, Substrate.resolve_setBytes (Substrate.source_of_writable hw)]

theorem Substrate.source_bytes_wf {c : Substrate} (h : c.wf = true) (i : Nat) : (c.source i).bytes.wf = true := by
  have := Substrate.source_wf h i
  simp only [Source.wf, Bool.and_eq_true] at this
  exact this.1.1

/-- Every byte of a substrate after a `Poke`: the byte written where the address resolves to the same byte of a writable
source, and what it was everywhere else (R155). -/
theorem Substrate.byteAt_pokeByte {c : Substrate} (h : c.wf = true) (a b : Nat) (d : Byte) :
    (c.pokeByte a d).byteAt b =
      if (c.source (c.resolve a).2.1).writable = true ∧ (c.resolve b).2 = (c.resolve a).2 then d else c.byteAt b := by
  rcases Substrate.pokeByte_cases c a d with ⟨hw, he⟩ | ⟨hw, he⟩
  · rw [he, if_neg (fun hc => Bool.false_ne_true (hw.symm.trans hc.1))]
  · have hi := Substrate.source_of_writable hw
    have hb := Substrate.source_bytes_wf h (c.resolve a).2.1
    rw [he]
    unfold Substrate.byteAt
    dsimp only
    rw [Substrate.resolve_setBytes hi, Substrate.source_setBytes hi]
    by_cases hs : (c.resolve a).2.1 = (c.resolve b).2.1
    · rw [if_pos hs]
      dsimp only
      rw [Store.read_write hb]
      by_cases hk : (c.resolve a).2.2 = (c.resolve b).2.2
      · rw [if_pos hk, if_pos ⟨hw, Prod.ext hs.symm hk.symm⟩]
      · rw [if_neg hk, if_neg (fun hc => hk (congrArg Prod.snd hc.2).symm), hs]
    · rw [if_neg hs, if_neg (fun hc => hs (congrArg Prod.fst hc.2).symm)]

/-- A `Poke` keeps a substrate well formed. -/
theorem Substrate.pokeByte_wf {c : Substrate} (h : c.wf = true) (a : Nat) (d : Byte) : (c.pokeByte a d).wf = true := by
  rcases Substrate.pokeByte_cases c a d with ⟨-, he⟩ | ⟨hw, he⟩
  · rw [he]; exact h
  · have hsrc := Substrate.source_wf h (c.resolve a).2.1
    obtain ⟨hs, hp, hm, hl, hk, hn, ha⟩ := Substrate.wf_iff.mp h
    rw [he]
    refine Substrate.wf_iff.mpr ⟨hs, hp, hm, hl, hk, ?_, ?_⟩
    · simpa [Substrate.nsrc, Substrate.setBytes] using hn
    · intro src hmem
      rcases List.mem_or_eq_of_mem_set hmem with hmem | rfl
      · exact ha src hmem
      · simp only [Source.wf, Bool.and_eq_true] at hsrc ⊢
        exact ⟨⟨Store.write_wf hsrc.1.1 _ _, hsrc.1.2⟩, hsrc.2⟩

/-! ### `SwapBank` -/

@[simp] theorem length_setPages (pt : List PageEntry) (p : Nat) (es : List PageEntry) :
    (setPages pt p es).length = pt.length := by
  induction es generalizing pt p with
  | nil => rfl
  | cons e es ih => rw [setPages, ih, List.length_set]

/-- Every page after a run of pages is written. -/
theorem getElem?_setPages (pt : List PageEntry) (p : Nat) (es : List PageEntry) (q : Nat)
    (h : p + es.length ≤ pt.length) :
    (setPages pt p es)[q]? = if p ≤ q ∧ q < p + es.length then es[q - p]? else pt[q]? := by
  induction es generalizing pt p with
  | nil => rw [if_neg (by simp)]; rfl
  | cons e es ih =>
    simp only [List.length_cons] at h
    rw [setPages, ih _ _ (by simp; omega)]
    by_cases hq : q = p
    · subst q
      rw [if_neg (by omega), if_pos (by simp), List.getElem?_set, if_pos rfl, if_pos (by omega)]
      simp
    · rw [List.getElem?_set, if_neg (show ¬p = q by omega)]
      by_cases hr : p + 1 ≤ q ∧ q < p + 1 + es.length
      · rw [if_pos hr, if_pos (by simp; omega), show q - p = (q - (p + 1)) + 1 by omega, List.getElem?_cons_succ]
      · rw [if_neg hr, if_neg (by simp; omega)]

theorem mem_setPages {pt : List PageEntry} {p : Nat} {es : List PageEntry} {e : PageEntry}
    (h : e ∈ setPages pt p es) : e ∈ pt ∨ e ∈ es := by
  induction es generalizing pt p with
  | nil => exact .inl h
  | cons f es ih =>
    rcases ih h with h | h
    · rcases List.mem_or_eq_of_mem_set h with h | rfl
      · exact .inl h
      · exact .inr List.mem_cons_self
    · exact .inr (List.mem_cons_of_mem _ h)

/-- Every entry a swap writes names the swap's source. -/
theorem swapEntries_src {c : Substrate} {run src : Nat} {banks : List Nat} {e : PageEntry}
    (h : e ∈ swapEntries c run src banks) : e.src = src := by
  simp only [swapEntries, List.mem_flatMap, List.mem_map] at h
  obtain ⟨_, _, _, _, rfl⟩ := h
  rfl

/-- A swap writes `run / page` entries for each bank (R152). -/
@[simp] theorem length_swapEntries (c : Substrate) (run src : Nat) (banks : List Nat) :
    (swapEntries c run src banks).length = banks.length * (run / c.page) := by
  simp [swapEntries, List.length_flatMap, List.map_const']

/-- A swap within its preconditions keeps a substrate well formed (R95). -/
theorem Substrate.swap_wf {c : Substrate} {run start src : Nat} {banks : List Nat} (h : c.wf = true)
    (hok : c.swapOk run start src banks = true) : (c.swap run start src banks).wf = true := by
  obtain ⟨hs, hp, hm, hl, hk, hn, ha⟩ := Substrate.wf_iff.mp h
  have hsrc : src < c.nsrc := by
    simp only [Substrate.swapOk, Bool.and_eq_true, decide_eq_true_eq] at hok; exact hok.1.2
  refine Substrate.wf_iff.mpr ⟨hs, hp, hm, ?_, hk, ?_, ha⟩
  · exact (length_setPages ..).trans hl
  · intro e he
    rcases mem_setPages he with he | he
    · exact hn e he
    · rw [swapEntries_src he]; exact hsrc

/-- `SwapBank` either rebinds one substrate's pages within its preconditions, or gives the one reason it has
(R151, R152). -/
theorem swapBank_cases (x : Sub) (run start src : Nat) (banks : List Nat) (s : State) :
    ((s.sub x).swapOk run start src banks = true ∧
      swapBank x run start src banks s = .ok (s.setSub x ((s.sub x).swap run start src banks))) ∨
    ((s.sub x).swapOk run start src banks = false ∧ swapBank x run start src banks s = .error .badSwap) := by
  unfold swapBank
  split
  · exact .inl ⟨‹_›, rfl⟩
  · exact .inr ⟨Bool.not_eq_true _ ▸ ‹_›, rfl⟩

/-- `SetMirroring` records the mode, and in a fixed mode rebinds the name tables' pages, or gives `BadSwap` where the
geometry has no four quadrants (R158, R159). -/
theorem setMirror_cases (m : Mirror) (s : State) :
    (m.banks = none ∧ setMirror m s = .ok { s with mirror := m }) ∨
    (∃ banks, m.banks = some banks ∧ s.nmt.swapOk 1024 0 0 banks = true ∧
      setMirror m s = .ok { s with nmt := s.nmt.swap 1024 0 0 banks, mirror := m }) ∨
    (∃ banks, m.banks = some banks ∧ s.nmt.swapOk 1024 0 0 banks = false ∧ setMirror m s = .error .badSwap) := by
  unfold setMirror
  split
  · exact .inl ⟨‹_›, rfl⟩
  · rename_i banks hb
    rcases swapBank_cases .nmt 1024 0 0 banks s with ⟨hok, he⟩ | ⟨hok, he⟩
    · refine .inr (.inl ⟨banks, hb, hok, ?_⟩)
      rw [he]; rfl
    · refine .inr (.inr ⟨banks, hb, hok, ?_⟩)
      rw [he]

/-! ### Sources, hooks and construction -/

/-- Setting a source keeps a substrate well formed (R150). -/
theorem Substrate.setSource_wf {c : Substrate} (h : c.wf = true) (i : Nat) (r w : Bool) {size : Nat} (hz : isPow2 size = true)
    {bytes : Store 8} (hb : bytes.wf = true) : (c.setSource i r w size bytes).wf = true := by
  obtain ⟨hs, hp, hm, hl, hk, hn, ha⟩ := Substrate.wf_iff.mp h
  refine Substrate.wf_iff.mpr ⟨hs, hp, hm, hl, hk, ?_, ?_⟩
  · simpa [Substrate.setSource, Substrate.nsrc] using hn
  · intro src hmem
    rcases List.mem_or_eq_of_mem_set hmem with hmem | rfl
    · exact ha src hmem
    · simp [Source.wf, hb, hz]

/-- The contents of a source just set are in canonical form. -/
theorem sourceContents_wf (base : Nat) (contents : Option (List Byte)) : (sourceContents base contents).wf = true := by
  cases contents with
  | none => rfl
  | some bytes => exact Store.ofBytes_wf bytes

/-- Installing or removing a hook keeps a substrate well formed (R157). -/
theorem Substrate.setHook_wf {c : Substrate} (h : c.wf = true) (p : Nat) (k : Option Nat) :
    ({ c with hooks := c.hooks.set p k } : Substrate).wf = true := by
  obtain ⟨hs, hp, hm, hl, hk, hn, ha⟩ := Substrate.wf_iff.mp h
  exact Substrate.wf_iff.mpr ⟨hs, hp, hm, hl, (List.length_set ..).trans hk, hn, ha⟩

/-- A substrate built from an allowed geometry and well-formed sources is well formed (R90, R97). -/
theorem buildSubstrate_wf {g : Geometry} {srcs : List Source} (hg : Geometry.ok g = true) (hn : 0 < srcs.length)
    (hs : ∀ src ∈ srcs, src.wf = true) : (buildSubstrate g srcs).wf = true := by
  simp only [Geometry.ok, Bool.and_eq_true, decide_eq_true_eq] at hg
  refine Substrate.wf_iff.mpr ⟨hg.1.1, hg.1.2, hg.2, ?_, ?_, ?_, hs⟩
  · simp [buildSubstrate, Substrate.npages]
  · simp [buildSubstrate, Substrate.npages]
  · intro e he
    simp only [buildSubstrate, List.mem_map] at he
    obtain ⟨_, _, rfl⟩ := he
    exact hn

/-- Drawing CIRAM's contents keeps a substrate well formed. -/
theorem drawCiram_wf {c : Substrate} (h : c.wf = true) (base : Nat) : (drawCiram base c).wf = true := by
  unfold drawCiram
  split
  · exact h
  · rename_i ciram rest hsrcs
    obtain ⟨hs, hp, hm, hl, hk, hn, ha⟩ := Substrate.wf_iff.mp h
    refine Substrate.wf_iff.mpr ⟨hs, hp, hm, hl, hk, ?_, ?_⟩
    · simpa [Substrate.nsrc, hsrcs] using hn
    · intro src hmem
      rcases List.mem_cons.mp hmem with rfl | hmem
      · have := ha ciram (hsrcs ▸ List.mem_cons_self)
        simp only [Source.wf, Bool.and_eq_true] at this ⊢
        exact ⟨⟨rfl, this.1.2⟩, this.2⟩
      · exact ha src (hsrcs ▸ List.mem_cons_of_mem _ hmem)

/-! ### The palette and OAM -/

/-- A palette index is an entry of the palette. -/
theorem palIndex_lt (i : BitVec 5) : (palIndex i).toNat < 32 := (palIndex i).isLt

/-- A palette read after a palette write (R88, R89). -/
theorem palRead_palWrite {s : State} (h : palWf s.pal = true) (i j : BitVec 5) (c : Colour) :
    (s.palWrite i c).palRead j = if palIndex i = palIndex j then c else s.palRead j := by
  have hw : s.pal.wf = true := by simp only [palWf, Bool.and_eq_true] at h; exact h.1
  unfold State.palRead State.palWrite
  dsimp only
  rw [Store.read_write hw]
  by_cases hij : palIndex i = palIndex j
  · rw [if_pos hij, if_pos (by rw [hij])]
  · rw [if_neg hij, if_neg (fun e => hij (BitVec.eq_of_toNat_eq e))]

/-- A palette write keeps the palette's form. -/
theorem palWrite_wf {s : State} (h : palWf s.pal = true) (i : BitVec 5) (c : Colour) :
    palWf (s.palWrite i c).pal = true := by
  simp only [palWf, Bool.and_eq_true] at h ⊢
  exact ⟨Store.write_wf h.1 _ _, Store.write_below h.2 (palIndex_lt i) _⟩

/-- The mask of an OAM byte is idempotent (R128). -/
@[simp] theorem oamMask_oamMask (a : Nat) (b : Byte) : oamMask a (oamMask a b) = oamMask a b := by
  unfold oamMask
  split
  · rw [BitVec.and_assoc]; rfl
  · rfl

/-- An OAM byte after a store (R313). -/
theorem oamByte_write {s : State} (h : oamWf s.oam = true) (a b : Nat) (d : Byte) :
    State.oamByte { s with oam := s.oam.write a (oamMask a d) } b = if a = b then oamMask a d else s.oamByte b := by
  have hw : s.oam.wf = true := by simp only [oamWf, Bool.and_eq_true] at h; exact h.1.1
  unfold State.oamByte
  dsimp only
  rw [Store.read_write hw]
  split
  · subst b; exact oamMask_oamMask a d
  · rfl

/-- A store into OAM keeps OAM's form. -/
theorem oam_write_wf {m : Store 8} (h : oamWf m = true) {a : Nat} (ha : a < 256) (d : Byte) :
    oamWf (m.write a (oamMask a d)) = true := by
  simp only [oamWf, Bool.and_eq_true, List.all_eq_true, decide_eq_true_eq] at h ⊢
  refine ⟨⟨Store.write_wf h.1.1 _ _, Store.write_below h.1.2 ha _⟩, fun c hc => ?_⟩
  unfold Store.write at hc
  dsimp only at hc
  split at hc
  · exact h.2 c (Cells.mem_del hc)
  · rcases Cells.mem_put hc with rfl | hc
    · exact oamMask_oamMask a d
    · exact h.2 c hc

/-- The output buffer keeps its form under a pixel written inside it (R56, R287). -/
theorem target_write_wf {m : Store 9} (h : targetFits m = true) {a : Nat} (ha : a < frameCells) (v : OutIndex) :
    targetFits (m.write a v) = true := by
  simp only [targetFits, Bool.and_eq_true, decide_eq_true_eq] at h ⊢
  exact ⟨⟨h.1.1, Store.write_wf h.1.2 _ _⟩, Store.write_below h.2 ha _⟩

/-! ### The state after reset -/

/-- Every memory of the state after reset is in its canonical form. -/
theorem State.reset_wf : State.reset.wf = true := by decide +kernel

end Sys2Proof.Machine
end

