-- ==== Sys2Proof/Laws/DotEngine.lean ====
section
/-! SUPPORT. What the micro-operations and a dot can do, said once. Every micro-operation but the skip test moves only the
pipeline's own fields; a dot then moves the position, the clock and the interrupt request. -/

namespace Sys2Proof.Machine

/-- `t` differs from `s` only in what a micro-operation may write: the flags, the fetch pipeline, the sprite unit, the bus
and the output buffer (R176, R180-R184, R210-R220, R244-R253, R281-R287). -/
def MicroFrame (s t : State) : Prop :=
  t = { s with
    warmUp := t.warmUp, vblSuppress := t.vblSuppress, vbl := t.vbl, s0hit := t.s0hit, ovf := t.ovf
    oamAddr := t.oamAddr, v := t.v, ntLatch := t.ntLatch, atLatch := t.atLatch, ptLo := t.ptLo, ptHi := t.ptHi
    shLo := t.shLo, shHi := t.shHi, atShLo := t.atShLo, atShHi := t.atShHi, sec := t.sec, obuf := t.obuf
    sprLo := t.sprLo, lastBus := t.lastBus, trace := t.trace, out := t.out, draws := t.draws }

theorem MicroFrame.refl (s : State) : MicroFrame s s := rfl

theorem MicroFrame.trans {s t u : State} (h : MicroFrame s t) (k : MicroFrame t u) : MicroFrame s u := by
  unfold MicroFrame at *
  rw [k, h]

/-- A rendering fetch is such a move. -/
theorem busFetch_frame (a : BusAddr) (s : State) : MicroFrame s (busFetch a s).2 := by
  obtain ⟨n, h⟩ := busFetch_snd a s
  rw [h]; rfl

/-- A read of the bus is such a move. -/
theorem ppuRead_frame (a : BusAddr) (s : State) : MicroFrame s (ppuRead a s).2 := by
  obtain ⟨n, h⟩ := ppuRead_snd a s
  rw [h]; rfl

/-! ### The fetches -/

theorem microNt_eq (s : State) :
    ∃ n, microNt s = { emitBus (ntAddr s.v) s with ntLatch := (ppuRead (ntAddr s.v) s).1, draws := n } := by
  obtain ⟨n, h⟩ := busFetch_eq (ntAddr s.v) s
  exact ⟨n, by unfold microNt; rw [h]⟩

theorem microAt_eq (s : State) :
    ∃ n, microAt s = { emitBus (atAddr s.v) s with atLatch := atGroup s.v (ppuRead (atAddr s.v) s).1, draws := n } := by
  obtain ⟨n, h⟩ := busFetch_eq (atAddr s.v) s
  exact ⟨n, by unfold microAt; rw [h]⟩

theorem microPtLo_eq (s : State) :
    ∃ n, microPtLo s =
      { emitBus (bgAddr s.ctrl s.ntLatch s.v) s with ptLo := (ppuRead (bgAddr s.ctrl s.ntLatch s.v) s).1, draws := n } := by
  obtain ⟨n, h⟩ := busFetch_eq (bgAddr s.ctrl s.ntLatch s.v) s
  exact ⟨n, by unfold microPtLo; rw [h]⟩

theorem microPtHi_eq (s : State) :
    ∃ n, microPtHi s =
      { emitBus (bgAddr s.ctrl s.ntLatch s.v ||| 8) s with
        ptHi := (ppuRead (bgAddr s.ctrl s.ntLatch s.v ||| 8) s).1
        shLo := reload s.shLo (s.ptLo.setWidth 16)
        shHi := reload s.shHi ((ppuRead (bgAddr s.ctrl s.ntLatch s.v ||| 8) s).1.setWidth 16)
        atShLo := reload s.atShLo (groupFill (s.atLatch.getLsbD 0))
        atShHi := reload s.atShHi (groupFill (s.atLatch.getLsbD 1))
        draws := n } := by
  obtain ⟨n, h⟩ := busFetch_eq (bgAddr s.ctrl s.ntLatch s.v ||| 8) s
  exact ⟨n, by unfold microPtHi; rw [h]; rfl⟩

theorem dummyFetch_eq (s : State) : ∃ n, dummyFetch s = { emitBus (ntAddr s.v) s with draws := n } :=
  busFetch_snd (ntAddr s.v) s

theorem microSprNt2_eq (s : State) : ∃ n, microSprNt2 s = { emitBus (ntAddr s.v) s with draws := n } :=
  busFetch_snd (ntAddr s.v) s

theorem microSprNt4_eq (s : State) : ∃ n, microSprNt4 s = { emitBus (ntAddr s.v) s with draws := n } :=
  busFetch_snd (ntAddr s.v) s

theorem microSprLo_eq (s : State) :
    ∃ n, microSprLo s =
      { emitBus (sprAddr s.ctrl (s.slotEntry s.slot) s.line) s with
        sprLo := (ppuRead (sprAddr s.ctrl (s.slotEntry s.slot) s.line) s).1, draws := n } := by
  obtain ⟨n, h⟩ := busFetch_eq (sprAddr s.ctrl (s.slotEntry s.slot) s.line) s
  exact ⟨n, by unfold microSprLo; rw [h]⟩

theorem microSprHi_eq (s : State) :
    ∃ n, microSprHi s =
      { emitBus (sprAddr s.ctrl (s.slotEntry s.slot) s.line ||| 8) s with
        obuf := s.obuf.set s.slot (slotOf (s.slotEntry s.slot)
          (ppuRead (sprAddr s.ctrl (s.slotEntry s.slot) s.line ||| 8) s).1 s.sprLo)
        draws := n } := by
  obtain ⟨n, h⟩ := busFetch_eq (sprAddr s.ctrl (s.slotEntry s.slot) s.line ||| 8) s
  exact ⟨n, by unfold microSprHi; dsimp only; rw [h]; rfl⟩

/-! ### Every micro-operation keeps the frame -/

theorem microVblSet_frame (s : State) : MicroFrame s (microVblSet s) := by unfold microVblSet; split <;> rfl
theorem microVblClr_frame (s : State) : MicroFrame s (microVblClr s) := rfl
theorem microWarmCount_frame (s : State) : MicroFrame s (microWarmCount s) := rfl
theorem microShift_frame (s : State) : MicroFrame s (microShift s) := rfl
theorem microIncX_frame (s : State) : MicroFrame s (microIncX s) := rfl
theorem microIncY_frame (s : State) : MicroFrame s (microIncY s) := rfl
theorem microHCopy_frame (s : State) : MicroFrame s (microHCopy s) := rfl
theorem microVCopy_frame (s : State) : MicroFrame s (microVCopy s) := rfl
theorem microOamZero_frame (s : State) : MicroFrame s (microOamZero s) := rfl
theorem microEval_frame (s : State) : MicroFrame s (microEval s) := rfl
theorem microIdle_frame (s : State) : MicroFrame s (microIdle s) := rfl
theorem microNt_frame (s : State) : MicroFrame s (microNt s) := by obtain ⟨n, h⟩ := microNt_eq s; rw [h]; rfl
theorem microAt_frame (s : State) : MicroFrame s (microAt s) := by obtain ⟨n, h⟩ := microAt_eq s; rw [h]; rfl
theorem microPtLo_frame (s : State) : MicroFrame s (microPtLo s) := by obtain ⟨n, h⟩ := microPtLo_eq s; rw [h]; rfl
theorem microPtHi_frame (s : State) : MicroFrame s (microPtHi s) := by obtain ⟨n, h⟩ := microPtHi_eq s; rw [h]; rfl
theorem microSprNt2_frame (s : State) : MicroFrame s (microSprNt2 s) := busFetch_frame ..
theorem microSprNt4_frame (s : State) : MicroFrame s (microSprNt4 s) := busFetch_frame ..
theorem microDummyNt338_frame (s : State) : MicroFrame s (microDummyNt338 s) := busFetch_frame ..
theorem microDummyNt340_frame (s : State) : MicroFrame s (microDummyNt340 s) := busFetch_frame ..
theorem microSprLo_frame (s : State) : MicroFrame s (microSprLo s) := by obtain ⟨n, h⟩ := microSprLo_eq s; rw [h]; rfl
theorem microSprHi_frame (s : State) : MicroFrame s (microSprHi s) := by obtain ⟨n, h⟩ := microSprHi_eq s; rw [h]; rfl

/-- One extra slot: the slot and the draw counter (R253). -/
theorem fillExtra_eq (s : State) (k : Nat) :
    ∃ o n, fillExtra s k = { s with obuf := s.obuf.set k o, draws := n } ∧
      ∀ p, o = some p → ∃ e hi lo, s.slotEntry k = some e ∧ slotOf (some e) hi lo = some p := by
  unfold fillExtra
  split
  · exact ⟨none, s.draws, rfl, by simp⟩
  · rename_i e he
    obtain ⟨n, hn⟩ := ppuRead_snd (sprAddr s.ctrl (some e) s.line) s
    obtain ⟨m, hm⟩ := ppuRead_snd (sprAddr s.ctrl (some e) s.line ||| 8) { s with draws := n }
    refine ⟨slotOf (some e) (ppuRead (sprAddr s.ctrl (some e) s.line ||| 8) { s with draws := n }).1
      (ppuRead (sprAddr s.ctrl (some e) s.line) s).1, m, ?_, fun p hp => ⟨e, _, _, he, hp⟩⟩
    dsimp only
    rw [hn, hm]

theorem fillExtra_frame (s : State) (k : Nat) : MicroFrame s (fillExtra s k) := by
  obtain ⟨o, n, h, -⟩ := fillExtra_eq s k
  rw [h]; rfl

/-- The extra slots: the output slots and the draw counter, and no bus event (R253). -/
theorem foldl_fillExtra_eq (ks : List Nat) (s : State) :
    ∃ ob n, ks.foldl fillExtra s = { s with obuf := ob, draws := n } ∧ ob.length = s.obuf.length := by
  induction ks generalizing s with
  | nil => exact ⟨s.obuf, s.draws, rfl, rfl⟩
  | cons k ks ih =>
    obtain ⟨o, n, h, -⟩ := fillExtra_eq s k
    obtain ⟨ob, m, h', hl⟩ := ih (fillExtra s k)
    rw [h] at h' hl
    exact ⟨ob, m, by rw [List.foldl_cons, h, h'], by simpa using hl⟩

theorem microSprExtra_eq (s : State) :
    ∃ ob n, microSprExtra s = { s with obuf := ob, draws := n } ∧ ob.length = s.obuf.length :=
  foldl_fillExtra_eq _ s

theorem microSprExtra_frame (s : State) : MicroFrame s (microSprExtra s) := by
  obtain ⟨ob, n, h, -⟩ := microSprExtra_eq s
  rw [h]; rfl

/-- A pixel goes to one entry of the bound buffer, or nowhere (R287). -/
theorem emitPixel_eq (c : Nat) (i : BitVec 5) (s : State) :
    (s.outBound = true ∧ s.line.toNat < 240 ∧ c < 256 ∧
      emitPixel c i s = { s with out := s.out.write (s.line.toNat * 256 + c) (outIndex s i) }) ∨
    ((s.outBound = false ∨ 240 ≤ s.line.toNat ∨ 256 ≤ c) ∧ emitPixel c i s = s) := by
  unfold emitPixel
  split
  · rename_i h
    simp only [Bool.and_eq_true, decide_eq_true_eq] at h
    exact .inl ⟨h.1.1, h.1.2, h.2, rfl⟩
  · rename_i h
    simp only [Bool.and_eq_true, decide_eq_true_eq, not_and, Nat.not_lt] at h
    refine .inr ⟨?_, rfl⟩
    cases hb : s.outBound
    · exact .inl rfl
    · by_cases hl : s.line.toNat < 240
      · exact .inr (.inr (h ⟨hb, hl⟩))
      · exact .inr (.inl (Nat.not_lt.mp hl))

theorem emitPixel_frame (c : Nat) (i : BitVec 5) (s : State) : MicroFrame s (emitPixel c i s) := by
  rcases emitPixel_eq c i s with ⟨-, -, -, h⟩ | ⟨-, h⟩ <;> rw [h] <;> rfl

theorem microPixel_frame (s : State) : MicroFrame s (microPixel s) := by
  unfold microPixel
  dsimp only
  exact MicroFrame.trans (t := { s with s0hit := _ }) rfl (emitPixel_frame ..)

theorem microPixelOff_frame (s : State) : MicroFrame s (microPixelOff s) := emitPixel_frame ..

theorem gate_frame {c : Bool} {f : State → State} (hf : ∀ s, MicroFrame s (f s)) (s : State) :
    MicroFrame s (gate c f s) := by
  unfold gate; split
  · exact hf s
  · exact .refl s

theorem bgFetchStep_frame (dot : Nat) (s : State) : MicroFrame s (bgFetchStep dot s) := by
  unfold bgFetchStep
  split
  · exact microNt_frame s
  · exact microAt_frame s
  · exact microPtLo_frame s
  · exact ((microPtHi_frame s).trans (microIncX_frame _)).trans (gate_frame microIncY_frame _)
  · exact .refl s

theorem sprFetchStep_frame (dot : Nat) (s : State) : MicroFrame s (sprFetchStep dot s) := by
  unfold sprFetchStep
  split
  · exact microSprNt2_frame s
  · exact microSprNt4_frame s
  · exact microSprLo_frame s
  · exact (microSprHi_frame s).trans (gate_frame microSprExtra_frame _)
  · exact .refl s

theorem renderOps_frame (visible pre : Bool) (dot : Nat) (s : State) : MicroFrame s (renderOps visible pre dot s) := by
  unfold renderOps
  dsimp only
  exact (((((((((gate_frame microPixel_frame s).trans (gate_frame microShift_frame _)).trans
    (gate_frame (bgFetchStep_frame dot) _)).trans (gate_frame microEval_frame _)).trans
    (gate_frame microHCopy_frame _)).trans (gate_frame microVCopy_frame _)).trans
    (gate_frame microOamZero_frame _)).trans (gate_frame (sprFetchStep_frame dot) _)).trans
    (gate_frame microDummyNt338_frame _)).trans (gate_frame microDummyNt340_frame _)

/-- The micro-operations of a dot move no position, no port register, no memory and no configuration. -/
theorem dotBody_frame (s : State) : MicroFrame s (dotBody s) := by
  unfold dotBody
  dsimp only
  exact ((((gate_frame microVblSet_frame s).trans (gate_frame microVblClr_frame _)).trans
    (gate_frame microWarmCount_frame _)).trans (gate_frame (renderOps_frame _ _ _) _)).trans
    (gate_frame microPixelOff_frame _)

section
variable {s u : State} (h : MicroFrame s u)
include h
theorem MicroFrame.line : u.line = s.line := by rw [h]
theorem MicroFrame.dot : u.dot = s.dot := by rw [h]
theorem MicroFrame.clock : u.clock = s.clock := by rw [h]
theorem MicroFrame.frame : u.frame = s.frame := by rw [h]
theorem MicroFrame.odd : u.odd = s.odd := by rw [h]
theorem MicroFrame.burstPhase : u.burstPhase = s.burstPhase := by rw [h]
theorem MicroFrame.latch : u.latch = s.latch := by rw [h]
theorem MicroFrame.ctrl : u.ctrl = s.ctrl := by rw [h]
theorem MicroFrame.mask : u.mask = s.mask := by rw [h]
theorem MicroFrame.t : u.t = s.t := by rw [h]
theorem MicroFrame.x : u.x = s.x := by rw [h]
theorem MicroFrame.w : u.w = s.w := by rw [h]
theorem MicroFrame.readBuf : u.readBuf = s.readBuf := by rw [h]
theorem MicroFrame.nmiReq : u.nmiReq = s.nmiReq := by rw [h]
theorem MicroFrame.oam : u.oam = s.oam := by rw [h]
theorem MicroFrame.pal : u.pal = s.pal := by rw [h]
theorem MicroFrame.chr : u.chr = s.chr := by rw [h]
theorem MicroFrame.nmt : u.nmt = s.nmt := by rw [h]
theorem MicroFrame.mirror : u.mirror = s.mirror := by rw [h]
theorem MicroFrame.outBound : u.outBound = s.outBound := by rw [h]
theorem MicroFrame.refused : u.refused = s.refused := by rw [h]
theorem MicroFrame.cfg : u.cfg = s.cfg := by rw [h]
theorem MicroFrame.inbox : u.inbox = s.inbox := by rw [h]
theorem MicroFrame.reply : u.reply = s.reply := by rw [h]
theorem MicroFrame.cpu : u.cpu = s.cpu := by rw [h]
theorem MicroFrame.renderOn : u.renderOn = s.renderOn := by rw [h]; rfl
theorem MicroFrame.renderActive : u.renderActive = s.renderActive := by rw [h]; rfl
theorem MicroFrame.onVisibleLine : u.onVisibleLine = s.onVisibleLine := by rw [h]; rfl
theorem MicroFrame.at (l d : Nat) : u.at l d = s.at l d := by rw [h]; rfl
end

/-! ### The position -/

/-- `t` differs from `s` only in the position, the frame count, the parity flag and the burst phase. -/
def PositionFrame (s t : State) : Prop :=
  t = { s with line := t.line, dot := t.dot, frame := t.frame, odd := t.odd, burstPhase := t.burstPhase }

theorem frameWrap_frame (short : Bool) (s : State) : PositionFrame s (frameWrap short s) := rfl

theorem advance_frame (s : State) : PositionFrame s (advance s) := by
  unfold advance
  split
  · rfl
  · split <;> rfl

theorem microSkip_frame (s : State) : PositionFrame s (microSkip s) := by
  unfold microSkip
  split
  · rfl
  · exact advance_frame s

theorem dotAdvance_frame (s : State) : PositionFrame s (dotAdvance s) := by
  unfold dotAdvance
  split
  · exact microSkip_frame s
  · exact advance_frame s

/-! ### Running dots -/

theorem runDots_add (m n : Nat) (s : State) : runDots (m + n) s = runDots n (runDots m s) := by
  induction m generalizing s with
  | zero => rw [Nat.zero_add]; rfl
  | succ m ih => rw [Nat.succ_add, runDots, runDots, ih]

theorem runDots_succ (n : Nat) (s : State) : runDots (n + 1) s = dotStep (runDots n s) := by
  rw [runDots_add n 1]; rfl

/-- What holds of a state and is kept by every dot holds after any number of dots. -/
theorem runDots_induct {P : State → Prop} (step : ∀ s, P s → P (dotStep s)) (n : Nat) {s : State} (h : P s) :
    P (runDots n s) := by
  induction n generalizing s with
  | zero => exact h
  | succ n ih => exact ih (step s h)

/-- What is kept by every dot is kept by `Update`. -/
theorem runUntil_induct {P : State → Prop} (step : ∀ s, P s → P (dotStep s)) (fuel time : Nat) {s : State} (h : P s) :
    P (runUntil fuel time s) := by
  induction fuel generalizing s with
  | zero => exact h
  | succ n ih =>
    unfold runUntil
    split
    · exact ih (step s h)
    · exact h

end Sys2Proof.Machine
end

