-- ==== Sys2Proof/Laws/PerInstr.lean ====
section
/-! SUPPORT. Encoding and decoding, one lemma per constructor of Instr. -/

namespace Sys2Proof

/-- The decoder gives port accesses only: calls and dot micro-operations have no bit encoding (R139). -/
theorem decodeAccess_format {word : AccessWord} {d : Byte} {i : Instr} (h : decodeAccess word d = .ok i) :
    i.format = .port := by
  have rows : ∀ r ∈ portRows, (r.instr d).format = .port := by simp [portRows, readRows, writeRows, Instr.format]
  unfold decodeAccess at h
  split at h
  · rename_i r hr
    cases h
    exact rows r (List.mem_of_find?_eq_some hr)
  · cases h

/-- Two rows of the port table select no common access word (R120). -/
theorem portRows_disjoint :
    portRows.Pairwise fun r r' => r.value &&& (r.mask &&& r'.mask) ≠ r'.value &&& (r.mask &&& r'.mask) := by
  simp only [portRows, readRows, writeRows]
  decide

end Sys2Proof

namespace Sys2Proof.Laws.EncodesBack

/-- What encoding says of an instruction: its bytes, if it has any, decode back to it with the rest left over; it has
bytes exactly when it is a port access; and no access word gives an instruction that is not one (R120, R139). -/
def Statement (i : Instr) : Prop :=
  (∀ bytes, encode i = some bytes → ∀ rest, decode (bytes ++ rest) = .ok (i, rest)) ∧
  (encode i = none ↔ i.format ≠ .port) ∧
  (i.format ≠ .port → ∀ word d, decodeAccess word d ≠ .ok i)

/-- An instruction without an encoding. -/
theorem of_not_port {i : Instr} (he : encode i = none) (hf : i.format ≠ .port) : Statement i :=
  ⟨fun _ h => (by rw [he] at h; cases h), ⟨fun _ => hf, fun _ => he⟩, fun hf _ _ h => hf (decodeAccess_format h)⟩

/-- An instruction with an encoding. -/
theorem of_port {i : Instr} {bytes : List Byte} (he : encode i = some bytes) (hf : i.format = .port)
    (hd : ∀ rest, decode (bytes ++ rest) = .ok (i, rest)) : Statement i :=
  ⟨fun _ h rest => by rw [he] at h; cases h; exact hd rest, ⟨fun h => (by rw [he] at h; cases h), fun h => absurd hf h⟩,
    fun h => absurd hf h⟩

theorem rdCtrl : Statement .rdCtrl :=
  of_port rfl rfl fun _ => rfl

theorem rdMask : Statement .rdMask :=
  of_port rfl rfl fun _ => rfl

theorem rdStatus : Statement .rdStatus :=
  of_port rfl rfl fun _ => rfl

theorem rdOamAddr : Statement .rdOamAddr :=
  of_port rfl rfl fun _ => rfl

theorem rdOamData : Statement .rdOamData :=
  of_port rfl rfl fun _ => rfl

theorem rdScroll : Statement .rdScroll :=
  of_port rfl rfl fun _ => rfl

theorem rdAddr : Statement .rdAddr :=
  of_port rfl rfl fun _ => rfl

theorem rdData : Statement .rdData :=
  of_port rfl rfl fun _ => rfl

theorem wrCtrl (d : Byte) : Statement (.wrCtrl d) :=
  of_port rfl rfl fun _ => rfl

theorem wrMask (d : Byte) : Statement (.wrMask d) :=
  of_port rfl rfl fun _ => rfl

theorem wrStatus (d : Byte) : Statement (.wrStatus d) :=
  of_port rfl rfl fun _ => rfl

theorem wrOamAddr (d : Byte) : Statement (.wrOamAddr d) :=
  of_port rfl rfl fun _ => rfl

theorem wrOamData (d : Byte) : Statement (.wrOamData d) :=
  of_port rfl rfl fun _ => rfl

theorem wrScroll (d : Byte) : Statement (.wrScroll d) :=
  of_port rfl rfl fun _ => rfl

theorem wrAddr (d : Byte) : Statement (.wrAddr d) :=
  of_port rfl rfl fun _ => rfl

theorem wrData (d : Byte) : Statement (.wrData d) :=
  of_port rfl rfl fun _ => rfl

theorem wrDma (d : Byte) : Statement (.wrDma d) :=
  of_port rfl rfl fun _ => rfl

theorem set (x : Sub) (src : Nat) (flags : Option (Bool × Bool)) (size : Nat) (contents : Option (List Byte)) : Statement (.set x src flags size contents) :=
  of_not_port rfl (by simp [Instr.format])

theorem swapBank (x : Sub) (run start src : Nat) (banks : List Nat) : Statement (.swapBank x run start src banks) :=
  of_not_port rfl (by simp [Instr.format])

theorem peek (x : Sub) (a : Nat) : Statement (.peek x a) :=
  of_not_port rfl (by simp [Instr.format])

theorem poke (x : Sub) (a : Nat) (d : Byte) : Statement (.poke x a d) :=
  of_not_port rfl (by simp [Instr.format])

theorem installHook (x : Sub) (p h : Nat) : Statement (.installHook x p h) :=
  of_not_port rfl (by simp [Instr.format])

theorem removeHook (x : Sub) (p : Nat) : Statement (.removeHook x p) :=
  of_not_port rfl (by simp [Instr.format])

theorem setMirroring (code : Nat) : Statement (.setMirroring code) :=
  of_not_port rfl (by simp [Instr.format])

theorem construct (cfg : Setup) (chr nmt : Geometry) : Statement (.construct cfg chr nmt) :=
  of_not_port rfl (by simp [Instr.format])

theorem reset (hard : Bool) (time : Nat) : Statement (.reset hard time) :=
  of_not_port rfl (by simp [Instr.format])

theorem update (time : Nat) : Statement (.update time) :=
  of_not_port rfl (by simp [Instr.format])

theorem beginFrame (target : Store 9) : Statement (.beginFrame target) :=
  of_not_port rfl (by simp [Instr.format])

theorem endFrame : Statement .endFrame :=
  of_not_port rfl (by simp [Instr.format])

theorem ackNmi : Statement .ackNmi :=
  of_not_port rfl (by simp [Instr.format])

theorem snapshot : Statement .snapshot :=
  of_not_port rfl (by simp [Instr.format])

theorem restore (chunks : List Chunk) : Statement (.restore chunks) :=
  of_not_port rfl (by simp [Instr.format])

theorem dotVblSet : Statement .dotVblSet :=
  of_not_port rfl (by simp [Instr.format])

theorem dotVblClr : Statement .dotVblClr :=
  of_not_port rfl (by simp [Instr.format])

theorem dotWarmCount : Statement .dotWarmCount :=
  of_not_port rfl (by simp [Instr.format])

theorem dotPixel : Statement .dotPixel :=
  of_not_port rfl (by simp [Instr.format])

theorem dotPixelOff : Statement .dotPixelOff :=
  of_not_port rfl (by simp [Instr.format])

theorem dotShift : Statement .dotShift :=
  of_not_port rfl (by simp [Instr.format])

theorem dotNt : Statement .dotNt :=
  of_not_port rfl (by simp [Instr.format])

theorem dotAt : Statement .dotAt :=
  of_not_port rfl (by simp [Instr.format])

theorem dotPtLo : Statement .dotPtLo :=
  of_not_port rfl (by simp [Instr.format])

theorem dotPtHi : Statement .dotPtHi :=
  of_not_port rfl (by simp [Instr.format])

theorem dotIncX : Statement .dotIncX :=
  of_not_port rfl (by simp [Instr.format])

theorem dotIncY : Statement .dotIncY :=
  of_not_port rfl (by simp [Instr.format])

theorem dotEval : Statement .dotEval :=
  of_not_port rfl (by simp [Instr.format])

theorem dotHCopy : Statement .dotHCopy :=
  of_not_port rfl (by simp [Instr.format])

theorem dotVCopy : Statement .dotVCopy :=
  of_not_port rfl (by simp [Instr.format])

theorem dotOamZero : Statement .dotOamZero :=
  of_not_port rfl (by simp [Instr.format])

theorem dotSprNt2 : Statement .dotSprNt2 :=
  of_not_port rfl (by simp [Instr.format])

theorem dotSprNt4 : Statement .dotSprNt4 :=
  of_not_port rfl (by simp [Instr.format])

theorem dotSprLo : Statement .dotSprLo :=
  of_not_port rfl (by simp [Instr.format])

theorem dotSprHi : Statement .dotSprHi :=
  of_not_port rfl (by simp [Instr.format])

theorem dotSprExtra : Statement .dotSprExtra :=
  of_not_port rfl (by simp [Instr.format])

theorem dotDummyNt338 : Statement .dotDummyNt338 :=
  of_not_port rfl (by simp [Instr.format])

theorem dotDummyNt340 : Statement .dotDummyNt340 :=
  of_not_port rfl (by simp [Instr.format])

theorem dotSkip : Statement .dotSkip :=
  of_not_port rfl (by simp [Instr.format])

theorem dotIdle : Statement .dotIdle :=
  of_not_port rfl (by simp [Instr.format])

end Sys2Proof.Laws.EncodesBack
end

