-- ==== Sys2Proof/Tests/Slice0.lean ====
section
/-! SUPPORT. Tests: expected results are those of spec/95_test_vectors.md (named T<n>, V<n>) or worked by hand from the
rule named. Each is about one operation on a small state. -/

namespace Sys2Proof.Tests

open Sys2Proof.Machine

/-- The state after one operation; the state itself if it has no next state. -/
def after (i : Instr) (s : State) : State :=
  match exec i s with
  | .next t => t
  | _ => s

/-- The state after one step. -/
def stepped (s : State) : State :=
  match step s with
  | .next t => t
  | _ => s

/-- The power-on state with warm-up over. -/
def warmed : State := { State.reset with warmUp := 0 }

/-- Warm, at a position. -/
def slot (line dot : BitVec 9) : State := { warmed with line, dot }

/-- A source of the bytes given. -/
def rom (bytes : List Byte) (size : Nat) : Source :=
  { bytes := Store.ofBytes bytes, size, readable := true, writable := false, rederivable := true }

/-! ### Well-formedness: a term each check refuses -/

theorem test_wf_contents_length : WellFormed (.set .chr 0 none 4 (some [1, 2, 3])) = false := by decide
theorem test_wf_contents_fit : WellFormed (.set .chr 0 none 4 (some [1, 2, 3, 4])) = true := by decide
theorem test_wf_sources : WellFormed (.construct State.reset.cfg ⟨8192, 1024, 3⟩ nmtGeometry) = false := by decide
theorem test_wf_sources_nmt : WellFormed (.construct State.reset.cfg chrGeometry ⟨4096, 1024, 0⟩) = false := by decide
theorem test_wf_target_order : WellFormed (.beginFrame ⟨.const 0, [(5, 1), (4, 1)]⟩) = false := by decide
theorem test_wf_target_range : WellFormed (.beginFrame ⟨.const 0, [(61440, 1)]⟩) = false := by decide
theorem test_wf_target_fill : WellFormed (.beginFrame ⟨.const 1, []⟩) = false := by decide

/-! ### Decoding: words written out from R120 and R132 -/

theorem test_decode_rdCtrl : decode [0x00, 0x20, 0x01] = .ok (.rdCtrl, []) := by decide
theorem test_decode_rdMask : decode [0x01, 0x20, 0x01] = .ok (.rdMask, []) := by decide
theorem test_decode_rdStatus : decode [0x02, 0x20, 0x01] = .ok (.rdStatus, []) := by decide
theorem test_decode_rdOamAddr : decode [0x03, 0x20, 0x01] = .ok (.rdOamAddr, []) := by decide
theorem test_decode_rdOamData : decode [0x04, 0x20, 0x01] = .ok (.rdOamData, []) := by decide
theorem test_decode_rdScroll : decode [0x05, 0x20, 0x01] = .ok (.rdScroll, []) := by decide
theorem test_decode_rdAddr : decode [0x06, 0x20, 0x01] = .ok (.rdAddr, []) := by decide
theorem test_decode_rdData : decode [0x07, 0x20, 0x01] = .ok (.rdData, []) := by decide
theorem test_decode_wrCtrl : decode [0x00, 0x20, 0x00, 0x80] = .ok (.wrCtrl 0x80, []) := by decide
theorem test_decode_wrMask : decode [0x01, 0x20, 0x00, 0x1E] = .ok (.wrMask 0x1E, []) := by decide
theorem test_decode_wrStatus : decode [0x02, 0x20, 0x00, 0xFF] = .ok (.wrStatus 0xFF, []) := by decide
theorem test_decode_wrOamAddr : decode [0x03, 0x20, 0x00, 0x08] = .ok (.wrOamAddr 0x08, []) := by decide
theorem test_decode_wrOamData : decode [0x04, 0x20, 0x00, 0xAA] = .ok (.wrOamData 0xAA, []) := by decide
theorem test_decode_wrScroll : decode [0x05, 0x20, 0x00, 0x7D] = .ok (.wrScroll 0x7D, []) := by decide
theorem test_decode_wrAddr : decode [0x06, 0x20, 0x00, 0x3D] = .ok (.wrAddr 0x3D, []) := by decide
theorem test_decode_wrData : decode [0x07, 0x20, 0x00, 0x55] = .ok (.wrData 0x55, []) := by decide
theorem test_decode_wrDma : decode [0x14, 0x40, 0x00, 0x02] = .ok (.wrDma 0x02, []) := by decide
/-- T121: `R $3FF8` is port 0. -/
theorem test_decode_mirror : decodeAccess 0x13FF8 0 = .ok .rdCtrl := by decide
/-- T147: `R $4014` is no block access. -/
theorem test_decode_read4014 : decodeAccess 0x14014 0 = .error .outsideBlock := by decide
theorem test_decode_4000 : decodeAccess 0x04000 0 = .error .outsideBlock := by decide
theorem test_decode_truncated : decode [0x00, 0x20, 0x00] = .error .truncated := by decide
theorem test_table_wrDma : decodeTableWord 24 0x04014 = some (.wrDma 0) := by decide
theorem test_table_dots :
    decodeTableWord 16 0x001 = some .dotVblSet ∧ decodeTableWord 8 2 = some .dotNt ∧
    decodeTableWord 8 4 = some .dotAt ∧ decodeTableWord 8 6 = some .dotPtLo ∧ decodeTableWord 8 0 = some .dotPtHi ∧
    decodeTableWord 16 0x100 = some .dotIncY ∧ decodeTableWord 16 0x101 = some .dotHCopy ∧
    decodeTableWord 16 0x140 = some .dotSprExtra ∧ decodeTableWord 16 0x152 = some .dotDummyNt338 ∧
    decodeTableWord 16 0x154 = some .dotDummyNt340 ∧ decodeTableWord 16 0x153 = some .dotSkip := by decide
/-- R132: the micro-operations of (0, 256), of (261, 1) and of (240, 5). -/
theorem test_schedule :
    schedule State.reset.cfg 0 256 true = [.dotPixel, .dotShift, .dotPtHi, .dotIncX, .dotIncY, .dotEval] ∧
    schedule State.reset.cfg 261 1 true = [.dotVblClr, .dotWarmCount, .dotShift] ∧
    schedule State.reset.cfg 240 5 true = [.dotIdle] ∧
    schedule State.reset.cfg 261 288 true = [.dotVCopy, .dotOamZero, .dotSprHi] ∧
    schedule State.reset.cfg 261 339 false = [.dotSkip] := by decide

/-! ### The substrate -/

/-- T1. -/
def chrRam : State :=
  after (.swapBank .chr 8192 0 1 [0]) (after (.set .chr 1 (some (true, true)) 8192 none) warmed)
theorem test_T1_pages : chrRam.chr.pt = (List.range 8).map fun p => ⟨1, p * 1024⟩ := by decide
/-- T2. -/
theorem test_T2 : (after (.peek .chr 0x1234) (after (.poke .chr 0x1234 0x5A) chrRam)).reply = .byte 0x5A := by decide
/-- CHR source 0 of 32 KB. -/
def rom32k : State := { warmed with chr := { warmed.chr with srcs := [rom [] 32768, placeholderSource] } }
/-- T3. -/
theorem test_T3 :
    ((after (.swapBank .chr 4096 0x1000 0 [9]) rom32k).chr.pt.drop 4).map (·.off) =
      [0x1000, 0x1400, 0x1800, 0x1C00] := by decide
/-- V1. -/
theorem test_V1 :
    ((after (.swapBank .chr 2048 0x0800 0 [21]) rom32k).chr.pt.drop 2).take 2 = [⟨0, 0x2800⟩, ⟨0, 0x2C00⟩] ∧
    (after (.swapBank .chr 2048 0x0800 0 [21]) rom32k).chr.resolve 0x0A05 = (2, 0, 0x2A05) := by decide
/-- T5: a ROM keeps its byte. -/
theorem test_T5 : (after (.poke .chr 0 0x55) rom32k).chr = rom32k.chr := by decide
/-- T7 to T10. -/
theorem test_T7 : after (.swapBank .chr 512 0 0 [0]) warmed = refuse .badSwap warmed := by decide
theorem test_T8 : (after (.swapBank .chr 1024 0x200 0 [0]) warmed).reply = .reason .badSwap := by decide
theorem test_T9 : (after (.swapBank .chr 4096 0x1000 0 [1, 2]) warmed).reply = .reason .badSwap := by decide
theorem test_T10 : (after (.swapBank .chr 1024 0 2 [0]) warmed).reply = .reason .badSwap := by decide
/-- T11. -/
theorem test_T11 : (after (.set .chr 0 (some (true, true)) 3000 none) warmed).reply = .reason .badSource := by decide
/-- T12. -/
theorem test_T12 : (after (.installHook .chr 8 1) warmed).reply = .reason .badPage := by decide
/-- T13. -/
theorem test_T13 : after (.setMirroring 5) warmed = refuse .badMirroring warmed := by decide
/-- T14: VERTICAL. -/
theorem test_T14 :
    let s := ppuWrite 0x2805 0x33 (after (.setMirroring 1) warmed)
    (ppuRead 0x2005 s).1 = 0x33 ∧ (s.nmt.source 0).bytes.cells = [(5, 0x33)] ∧ s.nmt.resolve 0x405 = (1, 0, 0x405) := by
  decide
/-- T15: HORIZONTAL. -/
theorem test_T15 : (ppuRead 0x2000 (ppuWrite 0x2400 7 (after (.setMirroring 0) warmed))).1 = 7 := by decide
/-- T16: SINGLE1. -/
theorem test_T16 : (after (.setMirroring 3) warmed).nmt.resolve 0xC10 = (3, 0, 0x410) := by decide
/-- T18, T19. -/
theorem test_T18 :
    let s := after (.poke .nmt 0x0810 0x44) (after (.installHook .nmt 2 7) warmed)
    (s.nmt.source 0).bytes.cells = [(0x410, 0x44)] ∧
      (after (.peek .nmt 0x0810) (after (.removeHook .nmt 2) s)).reply = .byte 0x44 := by decide
theorem test_T18_hook :
    (after (.peek .nmt 0x1810) (after (.installHook .nmt 2 7) warmed)).reply =
      .byte (Config.hookByte 0 .nmt 2 0x810 7) := by rfl
/-- T6: an unreadable source gives a free value. -/
theorem test_T6 : (after (.peek .chr 0x0010) warmed).reply = .byte ((Config.free 0).setWidth 8) := by rfl
/-- T21. -/
theorem test_T21 : [0x10, 0x14, 0x11, 0x1C, 0x1F].map palIndex = [0x00, 0x04, 0x11, 0x0C, 0x1F] := by decide

/-! ### The dot engine -/

/-- T30 and T32. -/
theorem test_T30 : let s := after (.update 11) State.reset; s.dot = 3 ∧ s.line = 0 ∧ s.clock = 12 := by decide
theorem test_T32 : let s := after (.update 3) State.reset; s.dot = 1 ∧ s.clock = 4 := by decide
/-- T39. -/
theorem test_T39 :
    let s := after .rdStatus { slot 241 1 with ctrl := 0x80 }
    let t := dotStep s
    s.reply = .byte 0 ∧ s.vblSuppress = true ∧ t.vbl = false ∧ t.vblSuppress = false ∧ t.nmiReq = false := by decide
/-- T40. -/
theorem test_T40 : let t := dotStep { slot 241 1 with ctrl := 0x80 }; t.vbl = true ∧ t.nmiReq = true := by decide
/-- T42. -/
theorem test_T42 :
    let t := after .rdStatus { slot 241 4 with vbl := true, nmiReq := true }
    t.reply = .byte 0x80 ∧ t.vbl = false ∧ t.nmiReq = true := by decide
/-- T41: in a cancel slot the request is a free value. -/
theorem test_T41 :
    (after .rdStatus { slot 241 2 with vbl := true, nmiReq := true }).nmiReq =
      ((Config.free 0).getLsbD 0 || false) := by rfl
/-- T43 to T46. -/
def skipping : State := { slot 261 339 with odd := true, frame := 1, mask := 0x08 }
theorem test_T43 :
    let t := dotStep skipping
    t.line = 0 ∧ t.dot = 0 ∧ t.frame = 2 ∧ t.odd = false := by decide
theorem test_T44 : let t := dotStep { slot 261 339 with odd := true }; t.line = 261 ∧ t.dot = 340 := by decide
theorem test_T46 :
    let t := dotStep { slot 311 339 with odd := true, mask := 0x18, cfg := ⟨.pal, .eight, true⟩ }
    t.line = 311 ∧ t.dot = 340 := by decide
/-- T48. -/
theorem test_T48 :
    let t := dotStep { slot 261 1 with vbl := true, s0hit := true, ovf := true, warmUp := 2 }
    t.vbl = false ∧ t.s0hit = false ∧ t.ovf = false ∧ t.warmUp = 1 := by decide
/-- T50: on line 240 a dot with rendering on only moves the position and the clock. -/
theorem test_T50 :
    let s := { slot 240 2 with mask := 0x18 }
    dotStep s = { s with dot := 3, clock := 4 } := by decide
/-- The end of a line and of a frame (R177), and the burst phase of a long frame (T164). -/
theorem test_wrap :
    let t := dotStep (slot 261 340)
    t.line = 0 ∧ t.dot = 0 ∧ t.frame = 1 ∧ t.odd = true ∧ t.burstPhase = 1 ∧ (dotStep (slot 7 340)).line = 8 := by decide

/-! ### Tile fetch -/

/-- T60, T61. -/
theorem test_T60 : [0x001F, 0x041F, 0x0005].map incX = [0x0400, 0x0000, 0x0006] := by decide
theorem test_T61 :
    [0x0000, 0x7000, 0x73A0, 0x7BA0, 0x73E0, 0x73C0].map incY = [0x1000, 0x0020, 0x0800, 0x0000, 0x0000, 0x03E0] := by
  decide
/-- T62, T63. -/
theorem test_T62 : hCopy 0x0A1F 0x0405 = 0x0E05 := by decide
theorem test_T63 : vCopy 0x7FFF 0x616F &&& 0x7BE0 = 0x6160 ∧ vCopy 0x7FFF 0x616F &&& 0x041F = 0x041F := by decide
/-- T65 to T67. -/
theorem test_T65 : atAddr 0x0044 = 0x23C1 ∧ atShift 0x0044 = 4 ∧ atAddr 0x0FBF = 0x2FFF ∧ atShift 0x0FBF = 2 := by decide
theorem test_T67 : ntAddr 0x0000 = 0x2000 ∧ ntAddr 0x6FFF = 0x2FFF := by decide
/-- T68. -/
theorem test_T68 : bgAddr 0x10 0x05 0x3000 = 0x1053 ∧ bgAddr 0x10 0x05 0x3000 ||| 8 = 0x105B := by decide
/-- T69. -/
theorem test_T69 : (after .dotShift { warmed with shLo := 0x80FF }).shLo = 0x01FE := by decide
/-- A machine whose pattern memory is a ROM of 8 KB with `0x80` at 0x0058 and whose name table holds 5 and 2. -/
def drawing : State :=
  { slot 0 0 with
    mask := 0x0A
    chr := { warmed.chr with
      srcs := [{ rom [] 8192 with bytes := ⟨.const 0, [(0x50, 0x80), (0x58, 0x80)]⟩ }, placeholderSource] } }
/-- The whole of a pattern space bound to source 0. -/
def drawn : State :=
  poked (after (.swapBank .chr 8192 0 0 [0]) drawing)
where
  poked (s : State) : State := pokeSub .nmt 0x3C0 2 (pokeSub .nmt 0 5 s)
theorem test_dotNt : let t := after .dotNt drawn; t.ntLatch = 5 ∧ t.lastBus = 0x2000 ∧ t.trace.length = 1 := by decide
theorem test_dotAt : let t := after .dotAt drawn; t.atLatch = 2 ∧ t.lastBus = 0x23C0 := by decide
theorem test_dotPtLo : let t := after .dotPtLo { drawn with ntLatch := 5 }; t.ptLo = 0x80 ∧ t.lastBus = 0x50 := by decide
/-- T70. -/
theorem test_T70 :
    let t := after .dotPtHi { drawn with ntLatch := 5, ptLo := 0x80, atLatch := 2, shLo := 0xAB00 }
    t.ptHi = 0x80 ∧ t.shLo = 0xAB80 ∧ t.shHi = 0x0080 ∧ t.atShLo = 0 ∧ t.atShHi = 0x00FF ∧ t.lastBus = 0x58 := by decide
theorem test_dotIncX : (after .dotIncX { warmed with v := 0x041F }).v = 0 := by decide
theorem test_dotIncY : (after .dotIncY { warmed with v := 0x7BA0 }).v = 0 := by decide
theorem test_dotHCopy : (after .dotHCopy { warmed with v := 0x0A1F, t := 0x0405 }).v = 0x0E05 := by decide
theorem test_dotVCopy : (after .dotVCopy { warmed with v := 0, t := 0x616F }).v = 0x6160 := by decide
/-- T76. -/
theorem test_T76 :
    let t := after .dotDummyNt338 { warmed with v := 0x0002 }
    t.lastBus = 0x2002 ∧ t.ntLatch = 0 ∧ (after .dotDummyNt340 { warmed with v := 0x0002 }).lastBus = 0x2002 := by decide
/-- T71 to T74. -/
def shifted : State :=
  { warmed with x := 5, shHi := 0x0400, shLo := 0, atShHi := 0x0400, atShLo := 0x0400, mask := 0x0A }
theorem test_T71 : bgPixel 20 shifted = some 0x0E ∧ bgPixel 5 { shifted with mask := 0x08 } = none ∧
    bgPixel 8 { shifted with mask := 0x08 } = some 0x0E ∧ bgPixel 20 { shifted with shHi := 0 } = none := by decide

/-! ### Sprites -/

/-- T80 to T82. -/
theorem test_T80 : inRange 8 0x20 0x20 ∧ inRange 8 0x20 0x27 ∧ ¬ inRange 8 0x20 0x1F ∧ ¬ inRange 8 0x20 0x28 ∧
    inRange 16 0x20 0x2F ∧ ¬ inRange 16 0x20 0x30 ∧ inRange 8 0xEF 239 ∧ ¬ inRange 16 0xFF 239 := by decide
/-- T83 to T86. -/
theorem test_T83 : sprAddr 0x08 (some ⟨0x30, 0x12, 0x00, 0, 0⟩) 0x33 = 0x1123 ∧
    sprAddr 0x08 (some ⟨0x30, 0x12, 0x80, 0, 0⟩) 0x33 = 0x1124 := by decide
theorem test_T84 : sprAddr 0x20 (some ⟨0x30, 0x25, 0x00, 0, 0⟩) 0x3A = 0x1252 ∧
    sprAddr 0x20 (some ⟨0x30, 0x25, 0x80, 0, 0⟩) 0x3A = 0x1245 := by decide
theorem test_T85 : sprAddr 0x08 none 7 = 0x1FF0 ∧ sprAddr 0x00 none 7 = 0x0FF0 ∧ sprAddr 0x20 none 7 = 0x1FE0 ∧
    sprAddr 0x20 none 7 ||| 8 = 0x1FE8 := by decide
/-- T87. -/
theorem test_T87 : sprPixels false 0x80 0xC0 = [3, 1, 0, 0, 0, 0, 0, 0] ∧
    sprPixels true 0x80 0xC0 = [0, 0, 0, 0, 0, 0, 1, 3] := by decide
/-- An OAM of 0xFF with the Y bytes and other bytes given on top. -/
def oamWith (cells : List (Nat × Byte)) : Store 8 :=
  cells.foldl (fun m c => m.write c.1 c.2) ⟨.const 0xFF, []⟩
/-- V5: nine sprites at Y 0x40, entries 0 to 8. -/
def nine : State :=
  { slot 0x42 256 with mask := 0x10, oam := oamWith ((List.range 9).map fun n => (4 * n, 0x40)) }
theorem test_V5 : let t := after .dotEval nine; t.sec.map (·.idx) = [0, 1, 2, 3, 4, 5, 6, 7] ∧ t.ovf = true := by decide
theorem test_V5_unlimited : let t := after .dotEval { nine with cfg := ⟨.ntsc, .unlimited, true⟩ }
    t.sec.map (·.idx) = [0, 1, 2, 3, 4, 5, 6, 7, 8] ∧ t.ovf = false := by decide
/-- T89 and T90, bug on and off. -/
def eightAt96 (more : List (Nat × Byte)) (bug : Bool) : State :=
  { slot 100 256 with
    mask := 0x10, cfg := ⟨.ntsc, .eight, bug⟩
    oam := oamWith ((List.range 8).map (fun n => (4 * n, 96)) ++ more) }
theorem test_T89 : (after .dotEval (eightAt96 [(37, 96)] true)).ovf = true ∧
    (after .dotEval (eightAt96 [(37, 96)] false)).ovf = false := by decide
theorem test_T90 : (after .dotEval (eightAt96 [(36, 96), (37, 0)] true)).ovf = false ∧
    (after .dotEval (eightAt96 [(36, 96), (37, 0)] false)).ovf = true := by decide
/-- T92. -/
theorem test_T92 : (dotStep { slot 10 257 with mask := 0x18, oamAddr := 0x40 }).oamAddr = 0 ∧
    (after .dotOamZero { warmed with oamAddr := 0x40 }).oamAddr = 0 := by decide
/-- R250. -/
theorem test_dotSprNt : (after .dotSprNt2 { slot 10 258 with v := 0x0402 }).lastBus = 0x2402 ∧
    (after .dotSprNt4 { slot 10 260 with v := 0x0402 }).lastBus = 0x2402 := by decide
/-- A slot fetch: entry 0 in slot 0 on line 1, tile 5 row 0, with a pattern byte (T87, T96). -/
def slotFetch : State := { drawn with line := 1, dot := 262, sec := [⟨1, 5, 0x22, 9, 0⟩] }
theorem test_dotSprLo : (after .dotSprLo slotFetch).sprLo = 0x80 ∧ (after .dotSprLo slotFetch).lastBus = 0x50 := by decide
theorem test_dotSprHi :
    (after .dotSprHi { slotFetch with dot := 264, sprLo := 0xC0 }).obuf.head? =
      some (some ⟨9, true, true, 2, [3, 1, 0, 0, 0, 0, 0, 0]⟩) := by decide
/-- T94: on the pre-render line every slot is empty. -/
theorem test_T94 : (after .dotSprHi { slotFetch with line := 261, dot := 264 }).obuf.head? = some none := by decide
/-- T187, R253: slot 8 is filled with no bus event. -/
theorem test_dotSprExtra :
    let t := after .dotSprExtra
      { drawn with
        line := 1, dot := 320, cfg := ⟨.ntsc, .unlimited, true⟩, obuf := List.replicate 64 none
        sec := (List.range 9).map fun n => ⟨1, 5, 0, 0x10, BitVec.ofNat 6 n⟩ }
    t.obuf[8]? = some (some ⟨0x10, false, false, 0, [3, 0, 0, 0, 0, 0, 0, 0]⟩) ∧ t.obuf[9]? = some none ∧
      t.trace = [] := by decide +kernel

/-! ### Pixels -/

/-- T100 to T103. -/
theorem test_T100 : composite (some 0x0B) (some ⟨2, 1, false, false⟩) = 0x16 ∧
    composite (some 0x0B) (some ⟨2, 1, true, false⟩) = 0x0B ∧ composite none (some ⟨1, 3, true, false⟩) = 0x1D ∧
    composite none none = 0x00 := by decide
/-- T104, T106. -/
def spr (x : Byte) (behind zero : Bool) (px : List (BitVec 2)) : Option OutSlot := some ⟨x, behind, zero, 1, px⟩
theorem test_T104 :
    sprPixel 12 { warmed with
      mask := 0x14, obuf := [spr 10 true false [1, 1, 0, 1, 1, 1, 1, 1], spr 12 false false [2, 0, 0, 0, 0, 0, 0, 0]] } =
      some ⟨2, 1, false, false⟩ := by decide
theorem test_T106 :
    let s := { warmed with mask := 0x14, obuf := [spr 0xFC false false [1, 1, 1, 1, 1, 1, 1, 1]] }
    (sprPixel 0xFF s).isSome ∧ sprPixel 0 s = none ∧ sprPixel 0xFB s = none := by decide
/-- T107 to T111: opaque background everywhere, sprite 0 at x. -/
def hitting (x : Byte) (mask : Byte) (dot : BitVec 9) : State :=
  { slot 50 dot with mask, shLo := 0xFFFF, obuf := [spr x false true [1, 0, 0, 0, 0, 0, 0, 0]] }
theorem test_T107 : (after .dotPixel (hitting 0x80 0x1E 0x81)).s0hit = true ∧
    (after .dotPixel (hitting 255 0x1E 256)).s0hit = false ∧ (after .dotPixel (hitting 5 0x18 6)).s0hit = false ∧
    (after .dotPixel (hitting 5 0x1E 6)).s0hit = true ∧ (after .dotPixel (hitting 0x80 0x16 0x81)).s0hit = false := by
  decide
/-- T112. -/
theorem test_T112 : let s := State.palWrite warmed 0x0B 0x16
    outIndex { s with mask := 0x0A } 0x0B = 0x016 ∧ outIndex { s with mask := 0x2B } 0x0B = 0x050 ∧
      outIndex { s with mask := 0xEA } 0x0B = 0x1D6 := by decide
/-- T113, T114. -/
theorem test_T113 : offIndex 0x3F05 = 5 ∧ offIndex 0x2000 = 0 ∧ palIndex (offIndex 0x3F14) = 4 := by decide
theorem test_dotPixelOff :
    let s := { State.palWrite (slot 2 4) 5 0x21 with v := 0x3F05 }
    (after .dotPixelOff { s with outBound := true }).out.cells = [(2 * 256 + 3, 0x21)] ∧
      (after .dotPixelOff s).out.cells = [] := by decide
/-- V7: the end-to-end pixel. -/
theorem test_V7 :
    let s := State.palWrite { drawn with
      dot := 1, outBound := true, shHi := 0x8000, shLo := 0x8000, atShHi := 0xFF00, atShLo := 0 } 0x0B 0x16
    (after .dotPixel s).out.cells = [(0, 0x016)] := by decide

/-! ### Ports -/

/-- T120: the write-only ports read back the latch. -/
theorem test_T120 :
    let s := after (.wrOamAddr 0x5A) warmed
    (after .rdCtrl s).reply = .byte 0x5A ∧ (after .rdMask s).reply = .byte 0x5A ∧
      (after .rdOamAddr s).reply = .byte 0x5A ∧ (after .rdScroll s).reply = .byte 0x5A ∧
      (after .rdAddr s).reply = .byte 0x5A ∧ s.oamAddr = 0x5A := by decide
/-- T122. -/
theorem test_T122 : let t := after .rdStatus (after (.wrStatus 0xFF) { slot 245 0 with vbl := true, ovf := true })
    t.reply = .byte 0xBF ∧ t.vbl = false := by decide
/-- V3: two status reads, then the high byte. -/
theorem test_V3 :
    let s := after .rdStatus { slot 241 10 with vbl := true, w := true, t := 0x1234 }
    let u := after .rdStatus s
    s.reply = .byte 0x80 ∧ u.reply = .byte 0x00 ∧ u.w = false ∧ (after (.wrAddr 0x21) u).t = 0x2134 := by decide
/-- T123 to T125. -/
theorem test_T123 : let t := after (.wrCtrl 0x03) warmed; t.t = 0x0C00 ∧ t.ctrl = 0x03 := by decide
theorem test_T124 : let t := after (.wrCtrl 0x80) { slot 245 0 with vbl := true }
    t.nmiReq = true ∧ (after .ackNmi t).nmiReq = false ∧ (after (.wrCtrl 0x80) (after .ackNmi t)).nmiReq = false := by
  decide
/-- T36, T37. -/
theorem test_T36 : let t := after (.wrCtrl 0x80) { State.reset with warmUp := 1, vbl := true }
    t.latch = 0x80 ∧ t.ctrl = 0 ∧ t.nmiReq = false := by decide
theorem test_T37 : let t := after (.wrScroll 0x7D) { State.reset with warmUp := 1 }
    t.latch = 0x7D ∧ t.t = 0 ∧ t.x = 0 ∧ t.w = false := by decide
theorem test_wrMask : (after (.wrMask 0x1E) warmed).mask = 0x1E ∧ (after (.wrMask 0x1E) State.reset).mask = 0 := by decide
/-- T126 to T128. At 0xFE, an attribute byte, R313's pseudocode stores 0xA2 where T126 writes 0xAA (log entry 32). -/
theorem test_T126 : let t := after (.wrOamData 0xBB) (after (.wrOamData 0xAA) { slot 245 0 with oamAddr := 0xFE })
    t.oamByte 0xFE = 0xA2 ∧ t.oamByte 0xFF = 0xBB ∧ t.oamAddr = 0 := by decide
theorem test_T127 : let t := after .rdOamData { after (.wrOamData 0xFF) { slot 245 0 with oamAddr := 2 } with oamAddr := 2 }
    t.reply = .byte 0xE3 ∧ t.oamAddr = 2 := by decide
theorem test_T128 : let t := after (.wrOamData 0x77) { slot 10 5 with mask := 0x08, oamAddr := 5 }
    t.oam.cells = [] ∧ t.oamAddr = 9 ∧ t.latch = 0x77 := by decide
/-- T129: during rendering the byte is a free value. -/
theorem test_T129 : (after .rdOamData { slot 10 5 with mask := 0x08 }).reply = .byte ((Config.free 0).setWidth 8) := by rfl
/-- T130, T131. -/
theorem test_T130 : let t := after (.wrScroll 0x5E) (after (.wrScroll 0x7D) warmed)
    t.t = 0x616F ∧ t.x = 5 ∧ t.w = false ∧ (after (.wrScroll 0xF0) { warmed with w := true }).t = 0x03C0 := by decide
/-- T132 to T134. -/
theorem test_T133 : (after (.wrAddr 0xFF) { warmed with t := 0x7FAB }).t = 0x3FAB := by decide
theorem test_T134 : let t := after (.wrAddr 0xF0) (after (.wrAddr 0x3D) { slot 245 0 with line := 245 })
    t.t = 0x3DF0 ∧ t.v = 0x3DF0 ∧ t.trace = [⟨0, 0x3DF0, true⟩] := by decide
/-- T135. -/
theorem test_T135 :
    let s := after .rdData { pokeSub .nmt 0 0x42 (slot 245 0) with v := 0x2000, readBuf := 0x11 }
    let u := after .rdData s
    s.reply = .byte 0x11 ∧ u.reply = .byte 0x42 ∧ u.v = 0x2002 := by decide
/-- T136. -/
theorem test_T136 :
    let s := { pokeSub .nmt 0xF01 0x99 (State.palWrite (slot 245 0) 1 0x16) with v := 0x3F01, latch := 0xC0 }
    let t := after .rdData s
    t.reply = .byte 0xD6 ∧ t.readBuf = 0x99 ∧ t.v = 0x3F02 := by decide
/-- T138 to T143. -/
theorem test_T138 : (after (.wrData 0) { slot 245 0 with v := 0x2000, ctrl := 0x04 }).v = 0x2020 := by decide
theorem test_T139 : let t := after .rdData { slot 245 0 with v := 0x7FFF }
    t.v = 0 ∧ t.trace.map (·.addr) = [0x3FFF, 0x0000] := by decide
theorem test_T140 : let t := after (.wrData 1) { slot 245 0 with v := 0x3FE0, ctrl := 0x04 }
    t.pal.cells = [(0, 1)] ∧ t.v = 0x4000 ∧ t.lastBus = 0 := by decide
theorem test_T141 : let t := after (.wrData 0x55) { slot 10 5 with mask := 0x08 }
    t.v = 0x1001 ∧ t.trace = [] ∧ t.chr = warmed.chr := by decide
theorem test_T143 : (after (.wrData 0xFF) { slot 245 0 with v := 0x3F10 }).pal.cells = [(0, 0x3F)] := by decide
/-- T144 on a page of one known byte, the rest of it free: the first entry's attribute byte is masked, the stall
reported, the pointer back where it started. -/
theorem test_T144 :
    let t := after (.wrDma 0x02) { slot 245 0 with cpu := (List.range 256).map fun i => (0x200 + i, 0xFF) }
    t.reply = .stall 513 ∧ t.oamByte 2 = 0xE3 ∧ t.oamByte 255 = 0xFF ∧ t.oamAddr = 0 ∧ t.latch = 0xFF := by decide +kernel
/-- T146: during rendering nothing is stored. -/
theorem test_T146 :
    let t := after (.wrDma 0x02) { slot 10 5 with mask := 0x08, oamAddr := 7 }
    t.oam.cells = [] ∧ t.oamAddr = 7 := by decide +kernel

/-! ### Host interface -/

/-- T161. -/
theorem test_T161 :
    let s := { slot 100 7 with v := 0x1234, vbl := true, t := 0x55, w := true, mask := 8, readBuf := 9, latch := 3 }
    let t := after (.reset false 1000) s
    t.v = 0x1234 ∧ t.vbl = true ∧ t.t = 0 ∧ t.w = false ∧ t.mask = 0 ∧ t.readBuf = 0 ∧ t.warmUp = 2 ∧ t.line = 0 ∧
      t.dot = 0 ∧ t.clock = 1000 ∧ t.latch = 3 ∧ t.oam = s.oam := by decide
/-- R344: what construction builds. -/
theorem test_construct :
    let t := after (.construct ⟨.pal, .unlimited, false⟩ chrGeometry nmtGeometry) warmed
    t.nmt.pt = State.reset.nmt.pt ∧ t.chr = State.reset.chr ∧ t.obuf.length = 64 ∧ t.warmUp = 2 ∧ t.mirror = .horizontal ∧
      (t.nmt.source 0).size = 2048 := by decide
/-- R371 code 1. -/
theorem test_badGeometry : after (.construct State.reset.cfg ⟨8192, 1000, 2⟩ nmtGeometry) warmed = refuse .badGeometry warmed := by
  decide
/-- R345, R346. -/
theorem test_frame :
    let s := after (.beginFrame ⟨.const 0, [(3, 7)]⟩) { warmed with burstPhase := 2 }
    let t := after .endFrame s
    s.outBound = true ∧ t.outBound = false ∧ t.reply = .frame ⟨.const 0, [(3, 7)]⟩ 2 := by decide
/-- T168: line and dot in the register chunk, at bytes 8 to 11. -/
theorem test_T168 :
    ((encReg (slot 100 37)).drop 8).take 4 = [100, 0, 37, 0] ∧ (after .snapshot (slot 100 37)).line = 100 := by decide
/-- R353: an unknown tag is skipped, a wrong length fails. -/
theorem test_restore_unknown : (after (.restore [⟨.unknown 9, 2, [1, 2]⟩]) warmed).reply = .nothing := by decide
theorem test_restore_length : after (.restore [⟨.unknown 9, 3, [1, 2]⟩]) warmed = failCorrupt warmed := by decide
/-- The scroll chunk, written out: v = 0x1234, t = 0x0567, x = 3, w = 1, readBuf = 0x99 (R352, R355). -/
theorem test_restore_scroll :
    let t := after (.restore [⟨.scroll, 7, [0x34, 0x12, 0x67, 0x05, 3, 1, 0x99]⟩]) warmed
    t.v = 0x1234 ∧ t.t = 0x0567 ∧ t.x = 3 ∧ t.w = true ∧ t.readBuf = 0x99 := by decide
/-- T188: a page naming source 3. -/
theorem test_T188 :
    let s := { warmed with nmt := { warmed.nmt with pt := [⟨0, 0⟩, ⟨0, 0⟩, ⟨3, 0⟩, ⟨0, 0⟩] } }
    after (.restore [chunkOf .banks (encPages s.chr ++ encPages s.nmt)]) warmed = failCorrupt warmed := by decide
theorem test_natural : encNat 300 = [0xAC, 0x02] ∧ decNat [0xAC, 0x02, 7] = some (300, [7]) := by decide

/-! ### Steps -/

/-- A pending access is performed and leaves the queue. -/
theorem test_step_access :
    let t := stepped { warmed with inbox := [.access 0x02003 0x5A, .access 0x12000 0] }
    t.oamAddr = 0x5A ∧ t.inbox = [.access 0x12000 0] := by decide
/-- T147: an access outside the block changes nothing. -/
theorem test_step_outside : stepped { warmed with inbox := [.access 0x14014 0] } = warmed := by decide
/-- A dot micro-operation is no call. -/
theorem test_step_illFormed : nextMove { warmed with inbox := [.call .dotNt] } = .illFormed := by decide
/-- With nothing pending the next dot runs. -/
theorem test_step_dot : (stepped State.reset).dot = 1 ∧ (stepped State.reset).clock = 4 := by decide
theorem test_fetch_word : (State.reset.withFetchWord 24 0x12002).inbox = [.access 0x12002 0] := by decide

/-! ### Witnesses: states and operands that meet the hypotheses of a statement, named after it -/

theorem witness_AccessWordSelectsItsPort :
    ((0x02000 : AccessWord) &&& 0x0E000 = 0x02000 ∧ (0x13FFF : AccessWord) &&& 0x0E000 = 0x02000) ∧
    decodeAccess 0x02000 9 = .ok (writeOfPort 0 9) ∧ decodeAccess 0x13FFF 9 = .ok (readOfPort 7) ∧
    ((0x01FFF : AccessWord) &&& 0x0E000 ≠ 0x02000 ∧ (0x04015 : AccessWord) &&& 0x0E000 ≠ 0x02000 ∧
      (0x14014 : AccessWord) &&& 0x0E000 ≠ 0x02000) ∧
    decodeAccess 0x04014 9 = .ok (.wrDma 9) ∧ decodeAccess 0x01FFF 9 = .error .outsideBlock ∧
    decodeAccess 0x04015 9 = .error .outsideBlock := by decide
theorem witness_DecodeAndEncodeAgree :
    encode (.wrData 0xFF) = some [0x07, 0x20, 0x00, 0xFF] ∧ encode .rdStatus = some [0x02, 0x20, 0x01] ∧
    decode [0xFF, 0x3F, 0x00, 0xFF, 0x77] = .ok (.wrData 0xFF, [0x77]) ∧ encode (.update 3) = none := by decide
theorem witness_StepRunsTheDecodedInstruction :
    decodeAccess 0x02003 0x5A = .ok (.wrOamAddr 0x5A) ∧ decodeAccess 0x14014 0 = .error .outsideBlock ∧
    (Instr.update 5).format = .call ∧ WellFormed (.update 5) = true ∧ Instr.dotNt.format ≠ .call ∧
    WellFormed (.set .chr 0 none 4 (some [1, 2, 3])) = false ∧ State.reset.inbox = [] := by decide
theorem witness_StepKeepsTheStateWellFormed :
    State.reset.wf = true ∧ (∃ t, step State.reset = .next t) ∧
    (∃ t, step { State.reset with inbox := [.access 0x02007 0xFF] } = .next t) := ⟨by decide, ⟨_, rfl⟩, ⟨_, rfl⟩⟩
theorem witness_InstructionsKeepTheSchedule :
    (slot 261 340).onSchedule = true ∧ { slot 311 340 with cfg := ⟨.pal, .eight, true⟩ }.onSchedule = true ∧
    (∃ t, exec (.update 0) (slot 261 340) = .next t) := ⟨by decide, by decide, ⟨_, rfl⟩⟩
theorem witness_RefusalMarksAndChangesNothingElse :
    exec (.swapBank .chr 512 0 0 [0]) warmed = .next (refuse .badSwap warmed) ∧
    raises (.swapBank .chr 512 0 0 [0]) .badSwap = true ∧
    (∃ t, exec .rdCtrl warmed = .next t ∧ t.refused = false) := ⟨rfl, rfl, ⟨_, rfl, rfl⟩⟩
theorem witness_PortAccessLeavesTheDotEngineAlone :
    (Instr.wrDma 2).format = .port ∧ Instr.rdData.format = .port ∧ (∃ t, exec (.wrDma 2) warmed = .next t) ∧
    (∃ t, exec .rdData warmed = .next t) := ⟨rfl, rfl, ⟨_, rfl⟩, ⟨_, rfl⟩⟩
theorem witness_NothingElseMovesTheBus :
    mayMoveBus (.wrAddr 1) { warmed with w := true, mask := 8 } = false ∧
    mayMoveBus (.wrDma 0x1F) warmed = false ∧ mayMoveBus (.wrDma 0x40) warmed = false ∧
    mayMoveBus (.update 9) warmed = false ∧ (∃ t, exec (.update 9) warmed = .next t) :=
  ⟨by decide, by decide, by decide, by decide, ⟨_, rfl⟩⟩
/-- An edge by a port write; a request kept outside the cancel slots and at their ends; a call that moves nothing. -/
theorem witness_NmiRequestFollowsTheEdge :
    let s := { slot 245 0 with vbl := true }
    (exec (.wrCtrl 0x80) s = .next (after (.wrCtrl 0x80) s) ∧ s.nmiLine = false ∧ (after (.wrCtrl 0x80) s).nmiLine = true) ∧
    (∃ t, exec .rdStatus { slot 241 4 with nmiReq := true } = .next t ∧ t.nmiReq = true) ∧
    (∃ t, exec .rdStatus { slot 241 2 with nmiReq := true } = .next t) ∧
    (∃ t, exec .rdStatus { slot 241 3 with nmiReq := true } = .next t) ∧
    Instr.ackNmi.format = .call ∧ Instr.endFrame.format = .call ∧ (∃ t, exec .endFrame s = .next t) :=
  ⟨⟨rfl, rfl, rfl⟩, ⟨_, rfl, rfl⟩, ⟨_, rfl⟩, ⟨_, rfl⟩, rfl, rfl, ⟨_, rfl⟩⟩
theorem witness_VblankRaceLosesTheFrame :
    (slot 241 1).onSchedule = true ∧ (slot 241 1).line.toNat = (slot 241 1).cfg.std.vblFirst ∧
      (slot 241 1).dot.toNat = 1 ∧ { slot 241 1 with cfg := ⟨.pal, .eight, true⟩ }.onSchedule = true := by decide
/-- A dot inside a line, the last of a line, the last of a frame, and the skip. -/
theorem witness_DotAdvancesThePosition :
    (slot 0 339).onSchedule = true ∧ (slot 260 340).onSchedule = true ∧ (slot 261 340).onSchedule = true ∧
    skipping.onSchedule = true ∧ skipping.line.toNat = skipping.cfg.std.pre ∧ skipping.cfg.std.oddSkip = true ∧
    skipping.renderOn = true ∧
    { slot 311 340 with cfg := ⟨.pal, .eight, true⟩ }.onSchedule = true := by decide
theorem witness_FrameTakesItsDots :
    (slot 0 0).onSchedule = true ∧ (slot 0 0).line = 0 ∧ (slot 0 0).dot = 0 ∧
    { slot 0 0 with odd := true, frame := 1, mask := 8 }.onSchedule = true ∧
    frameDots { slot 0 0 with odd := true, frame := 1, mask := 8 } = 89341 ∧ frameDots (slot 0 0) = 89342 := by decide
theorem witness_DotsWithRenderingOffAreIdle :
    (∀ m < 2, (runDots m { slot 240 0 with mask := 0x18 }).renderActive = false) ∧
    (∀ m < 2, (runDots m { slot 260 338 with mask := 0x18 }).renderActive = false) ∧
    { slot 240 0 with mask := 0x18 }.renderOn = true ∧ { slot 0 0 with mask := 0xE7 }.renderOn = false ∧ (slot 0 0).s0hit = false ∧ (slot 0 0).ovf = false := by decide
theorem witness_WarmUpEndsAtTheSecondFlagClear :
    State.reset.onSchedule = true ∧ State.reset.line = 0 ∧ State.reset.dot = 0 ∧ State.reset.renderOn = false ∧
      State.reset.warmUp = 2 := by decide
theorem witness_UpdatesCompose : (3 : Nat) ≤ 7 ∧ ∃ t, exec (.update 3) State.reset = .next t := ⟨by decide, _, rfl⟩
/-- The ends of each range of the map. -/
theorem witness_BusAddressesReachTheirMemory :
    (0x1FFF : BusAddr).toNat < 0x2000 ∧ 0x2000 ≤ (0x2000 : BusAddr).toNat ∧ (0x2FFF : BusAddr).toNat < 0x3000 ∧
    0x3000 ≤ (0x3000 : BusAddr).toNat ∧ (0x3EFF : BusAddr).toNat < 0x3F00 ∧ 0x3F00 ≤ (0x3F00 : BusAddr).toNat ∧
    0x3F00 ≤ (0x3FFF : BusAddr).toNat := by decide
theorem witness_PaletteWriteIsSeenAtItsMirrors :
    palWf State.reset.pal = true ∧ 0x3F00 ≤ (0x3F10 : BusAddr).toNat ∧ 0x3F00 ≤ (0x3FE0 : BusAddr).toNat := by decide
theorem witness_FetchesNeverReachThePalette :
    (∃ t, exec .dotAt { warmed with v := 0x7FFF } = .next t ∧ t.lastBus = 0x2FFF) ∧
    (∃ t, exec .dotPtHi { warmed with v := 0x7000, ntLatch := 0xFF, ctrl := 0x10 } = .next t) :=
  ⟨⟨_, rfl, by decide⟩, ⟨_, rfl⟩⟩
theorem witness_PeekReadsTheBoundByte :
    (rom32k.sub .chr).wf = true ∧ (rom32k.sub .chr).pt[0x1FFF % 8192 / 1024]? = some ⟨0, 0⟩ ∧
    (rom32k.sub .chr).hooks[0x1FFF % 8192 / 1024]? = some none ∧ ((rom32k.sub .chr).source 0).readable = true := by decide
theorem witness_PokeStoresOneByte :
    (chrRam.sub .chr).wf = true ∧ ((chrRam.sub .chr).source 1).writable = true ∧
    (chrRam.sub .chr).resolve 0x1FFF = (7, 1, 0x1FFF) := by decide
theorem witness_SetBindsASource :
    (1 < (warmed.sub .chr).nsrc ∧ ∃ k, 8192 = 2 ^ k) ∧ (1 < (warmed.sub .chr).nsrc ∧ ∃ k, 1 = 2 ^ k) ∧
    ¬(2 < (warmed.sub .chr).nsrc) := ⟨⟨by decide, 13, rfl⟩, ⟨by decide, 0, rfl⟩, by decide⟩
/-- Swaps at both ends of the space, and the least start outside it. -/
theorem witness_SwapBankRebindsItsRuns :
    (rom32k.sub .chr).wf = true ∧ (rom32k.sub .chr).swapOk 8192 0 1 [0] = true ∧
    (rom32k.sub .chr).swapOk 1024 0x1C00 0 [31] = true ∧ (rom32k.sub .chr).swapOk 1024 0x2000 0 [0] = false ∧
    (rom32k.sub .chr).swapOk 1024 0 0 [] = false := by decide
theorem witness_SwapThenPeekIndexesTheSource :
    (rom32k.sub .chr).wf = true ∧ (rom32k.sub .chr).swapOk 2048 0x1000 0 [21, 3] = true ∧ 2047 < 2048 ∧
    ((rom32k.sub .chr).source 0).readable = true ∧
    (rom32k.sub .chr).hooks[(0x1000 + 1 * 2048 + 2047) / (rom32k.sub .chr).page]? = some none := by decide
theorem witness_HooksAreSetPerPage :
    (warmed.sub .nmt).wf = true ∧ 3 < (warmed.sub .nmt).npages ∧ (warmed.sub .nmt).npages ≤ 4 := by decide
theorem witness_MirroringBindsTheNameTables :
    warmed.nmt.wf = true ∧ warmed.nmt.space = 4096 ∧ warmed.nmt.page = 1024 ∧ 5 > 4 := by decide
/-- The race slot, both cancel slots, and the ends of the overflow window with an overflow to come. -/
theorem witness_StatusReadClearsVblankAndToggle :
    ((slot 241 1).line.toNat = (slot 241 1).cfg.std.vblFirst ∧ (slot 241 1).dot.toNat = 1) ∧
    (2 ≤ (slot 241 2).dot.toNat ∧ (slot 241 3).dot.toNat ≤ 3 ∧ ¬((slot 241 4).dot.toNat ≤ 3)) ∧
    (nine.onVisibleLine = true ∧ nine.renderOn = true ∧ nine.dot.toNat ≤ 256) ∧
    (∃ u, exec .dotEval { nine with dot := 66, ovf := false } = .next u ∧ u.ovf = true) :=
  ⟨by decide, by decide, by decide, ⟨_, rfl, by decide⟩⟩
theorem witness_WarmUpFiltersFourPorts : 0 < State.reset.warmUp := by decide
theorem witness_ControlAndMaskWrites : warmed.warmUp = 0 := by decide
theorem witness_OamDataPort :
    oamWf warmed.oam = true ∧ (slot 240 5).renderActive = false ∧ { slot 239 5 with mask := 8 }.renderActive = true := by
  decide
theorem witness_ScrollWritesFillHalves : warmed.w = false ∧ { warmed with w := true }.w = true ∧ warmed.warmUp = 0 := by
  decide
theorem witness_AddressWritesFillHalves :
    { warmed with mask := 8, w := true }.renderActive = true ∧ { warmed with w := true }.renderActive = false ∧
      warmed.warmUp = 0 := by decide
theorem witness_DataReadIsOneReadBehind :
    { warmed with v := 0x3EFF }.renderActive = false ∧ ((0x3EFF : VAddr).setWidth 14).toNat < 0x3F00 ∧
      0x3F00 ≤ ((0x7F00 : VAddr).setWidth 14).toNat := by decide
theorem witness_DataPortDuringRenderingReachesNoMemory :
    { slot 239 0 with mask := 0x10 }.renderActive = true ∧ { slot 261 0 with mask := 0x08 }.renderActive = true := by decide
theorem witness_DataWriteStoresOneByte :
    warmed.renderActive = false ∧ warmed.chr.wf = true ∧ warmed.nmt.wf = true ∧ palWf warmed.pal = true ∧
    ((0x1FFF : VAddr).setWidth 14).toNat < 0x2000 ∧ 0x2000 ≤ ((0x2000 : VAddr).setWidth 14).toNat ∧
    ((0x3EFF : VAddr).setWidth 14).toNat < 0x3F00 ∧ 0x3F00 ≤ ((0x3F00 : VAddr).setWidth 14).toNat := by decide
theorem witness_DmaCopiesAPageIntoOam :
    let s := { slot 245 0 with cpu := (List.range 256).map fun i => (0x200 + i, 0xFF) }
    oamWf s.oam = true ∧ s.renderActive = false ∧ pageOfPorts 0x02 = false ∧ pageOfPorts 0x1F = false ∧
    pageOfPorts 0x40 = false ∧ pageOfPorts 0x20 = true ∧ pageOfPorts 0x3F = true ∧
    ∀ i < 256, Cells.get s.cpu ((0x02 : Byte).toNat * 256 + i) = some 0xFF := by decide +kernel
theorem witness_ConstructBuildsAnInstance :
    Geometry.ok ⟨8192, 1000, 2⟩ = false ∧ Geometry.ok ⟨512, 1024, 2⟩ = false ∧ Geometry.ok ⟨0, 1, 2⟩ = false := by decide
/-- A machine and one of its shape with other contents. -/
theorem witness_RestoreOfASnapshotGivesBackTheState :
    State.reset.wf = true ∧ SameShape State.reset warmed ∧
    (∀ x i, ((State.reset.sub x).source i).rederivable = true →
      ∀ k < ((State.reset.sub x).source i).size,
        ((warmed.sub x).source i).bytes.read k = ((State.reset.sub x).source i).bytes.read k) :=
  ⟨by decide, ⟨rfl, fun x => by cases x <;> exact ⟨rfl, rfl, rfl, rfl⟩⟩, fun x i _ k _ => by cases x <;> rfl⟩
/-- Each ground of a failing load: the stated length, a bad page of `CHR` and of `NMT` (T188), a layout of fixed length, a
chunk too long by one byte and one too short. -/
theorem witness_RestoreFailsWholeOrNotAtAll :
    (⟨.unknown 9, 3, [1, 2]⟩ : Chunk).len ≠ [1, 2].length ∧
    (7 < warmed.chr.pt.length ∧ warmed.chr.nsrc ≤ (⟨2, 0⟩ : PageEntry).src) ∧
    ((List.replicate 8 ((⟨1, 0⟩ : PageEntry), (none : Option Nat))).length = warmed.chr.pt.length ∧
      2 < warmed.nmt.pt.length ∧ warmed.nmt.nsrc ≤ (⟨3, 0⟩ : PageEntry).src ∧ (1 : Nat) < (warmed.sub .nmt).nsrc) ∧
    ((List.replicate 255 (0 : Byte)).length ≠ 256 ∧ (List.replicate 33 (0 : Byte)).length ≠ 32) ∧
    (⟨.unknown 9, 2, [1, 2]⟩ : Chunk).len = [1, 2].length := by decide +kernel
theorem witness_RestoreFailsPastItsLayout :
    warmed.wf = true ∧ SameShape warmed State.reset ∧ chunkOf .scroll (encScroll warmed) ∈ snapshotChunks warmed ∧
    (chunkOf .scroll (encScroll warmed ++ [9])).bytes = (chunkOf .scroll (encScroll warmed)).bytes ++ [9] ∧
    (chunkOf .scroll [0, 0, 0, 0, 0, 0]).bytes ++ [0] = (chunkOf .scroll (encScroll warmed)).bytes :=
  ⟨by decide, ⟨rfl, fun x => by cases x <;> exact ⟨rfl, rfl, rfl, rfl⟩⟩, List.mem_cons_of_mem _ List.mem_cons_self, rfl, rfl⟩
/-- R353's example and its like in `CHR`, an OAM chunk of 255 bytes, and a palette chunk of 33. -/
theorem test_restore_layout :
    after (.restore [chunkOf .banks (encPages warmed.chr ++ encPage (⟨0, 0⟩, none) ++ encPage (⟨0, 0⟩, none) ++
      encPage (⟨3, 0⟩, none))]) warmed = failCorrupt warmed ∧
    after (.restore [chunkOf .banks (encPage (⟨2, 0⟩, none))]) warmed = failCorrupt warmed ∧
    after (.restore [chunkOf .oam (List.replicate 255 0)]) warmed = failCorrupt warmed ∧
    after (.restore [chunkOf .pal (List.replicate 33 0)]) warmed = failCorrupt warmed := by decide +kernel
/-- Both launches, each right after a construction. -/
theorem witness_LaunchesAreWellFormed :
    let built := after (.construct State.reset.cfg chrGeometry nmtGeometry) State.reset
    Launch built ∧ PowerOn built ∧ Launch (after (.restore []) built) ∧ Cells.rising 0 built.cpu = true :=
  have h : PowerOn (after (.construct State.reset.cfg chrGeometry nmtGeometry) State.reset) := ⟨_, _, rfl⟩
  ⟨.inl h, h, .inr ⟨_, [], h, rfl, rfl⟩, rfl⟩
theorem witness_EventMicroOperations :
    skipping.cfg.std.oddSkip = true ∧ skipping.odd = true ∧ skipping.renderOn = true ∧
    (slot 261 339).odd = false ∧ (slot 261 339).dot.toNat = 339 := by decide
theorem witness_ReloadedTileIsShownInOrder :
    exec .dotPtHi { drawn with ntLatch := 5, ptLo := 0x80, x := 7 } =
      .next (after .dotPtHi { drawn with ntLatch := 5, ptLo := 0x80, x := 7 }) ∧
    (7 : BitVec 3).toNat ≤ 8 + 0 ∧ drawn.mask.getLsbD 3 = true ∧ drawn.mask.getLsbD 1 = true := ⟨rfl, by decide⟩
/-- The background off, clipped at its last column, shown from there on, and transparent where it is shown (T71 to T74). -/
theorem witness_ReloadedTileBackgroundCandidate :
    { shifted with mask := 0x02 }.mask.getLsbD 3 = false ∧ bgPixel 20 { shifted with mask := 0x02 } = none ∧
    bgPixel 7 { shifted with mask := 0x08 } = none ∧ bgPixel 8 { shifted with mask := 0x08 } = some 0x0E ∧
    bgPixel 7 shifted = some 0x0E := by decide
theorem witness_OverflowScanSetsTheFlag :
    exec .dotEval nine = .next (after .dotEval nine) ∧ nine.cfg.limit = .eight ∧ nine.cfg.overflowBug = true ∧
    exec .dotEval (eightAt96 [(36, 96)] false) = .next (after .dotEval (eightAt96 [(36, 96)] false)) ∧
    (eightAt96 [(36, 96)] false).cfg.overflowBug = false ∧
    (∃ u, exec .dotEval { nine with cfg := ⟨.ntsc, .unlimited, true⟩ } = .next u) :=
  ⟨rfl, rfl, rfl, rfl, rfl, ⟨_, rfl⟩⟩
/-- The ends of the slot fetches, an empty slot and a full one. -/
theorem witness_SpriteSlotFetches :
    257 ≤ (slot 0 257).dot.toNat ∧ (slot 0 320).dot.toNat ≤ 320 ∧ slotFetch.sec[(slotFetch.dot.toNat - 257) / 8]? ≠ none ∧
      (slot 0 257).sec[0]? = none := by decide
theorem witness_ExtraSlotsAreFilledSilently :
    let s : State := { drawn with line := 1, sec := (List.range 9).map fun n => ⟨1, 5, 0, 0x10, BitVec.ofNat 6 n⟩ }
    s.sec[8]? = some ⟨1, 5, 0, 0x10, 8⟩ ∧ s.sec[9]? = none ∧
    s.chr.plainAt (sprRowAddr s.ctrl s.sec[8]? 1) = true ∧ s.chr.plainAt (sprRowAddr s.ctrl s.sec[8]? 1 + 8) = true := by
  decide
theorem witness_PixelIsCompositedAndEmitted :
    let s := hitting 0x80 0x1E 0x81
    s.line.toNat < 240 ∧ 1 ≤ s.dot.toNat ∧ s.dot.toNat ≤ 256 ∧ targetFits s.out = true ∧
    (sprPixel 0x80 s).isSome = true ∧ (bgPixel 0x80 s).isSome = true ∧
    1 ≤ (slot 239 1).dot.toNat ∧ (slot 239 256).dot.toNat ≤ 256 ∧ bgPixel 0 (slot 239 1) = none ∧
    sprPixel 0 (slot 239 1) = none := by decide
theorem witness_PixelWithRenderingOff :
    (slot 239 256).line.toNat < 240 ∧ 1 ≤ (slot 239 256).dot.toNat ∧ (slot 239 256).dot.toNat ≤ 256 ∧
      targetFits (slot 239 256).out = true := by decide
theorem witness_FirstOpaqueSpriteWins :
    let s := { warmed with
      mask := 0x14, obuf := [spr 10 true false [1, 1, 0, 1, 1, 1, 1, 1], spr 12 false false [2, 0, 0, 0, 0, 0, 0, 0]] }
    s.mask.getLsbD 4 = true ∧ s.mask.getLsbD 2 = true ∧
    s.obuf[1]? = some (spr 12 false false [2, 0, 0, 0, 0, 0, 0, 0]) ∧
    slotShows (spr 12 false false [2, 0, 0, 0, 0, 0, 0, 0]) 12 = true ∧
    slotShows (spr 10 true false [1, 1, 0, 1, 1, 1, 1, 1]) 12 = false ∧
    (∀ o ∈ s.obuf, slotShows o 20 = false) := by decide

end Sys2Proof.Tests
end

section
/-! The driver: what a step does in terms of the move it makes, which move each head of the queue gives, and that
`Update(clock)` is one dot. -/

namespace Sys2Proof.Machine

variable {s t : State} {i : Instr} {rest : List Request}

/-! ### A step by its move -/

theorem step_of_perform (h : nextMove s = .perform i t) : step s = exec i t := by rw [step, h]

theorem step_of_outside (h : nextMove s = .outside t) : step s = .next t := by rw [step, h]

theorem step_of_illFormed (h : nextMove s = .illFormed) : step s = .refused .illFormedRequest := by rw [step, h]

/-! ### The move by the oldest request -/

theorem nextMove_of_idle (h : s.inbox = []) : nextMove s = .perform (.update s.clock) s := by rw [nextMove, h]

theorem nextMove_of_decoded {word : AccessWord} {d : Byte} (h : s.inbox = .access word d :: rest)
    (hd : decodeAccess word d = .ok i) : nextMove s = .perform i { s with inbox := rest } := by
  simp [nextMove, h, hd]

theorem nextMove_of_undecoded {word : AccessWord} {d : Byte} {e : Reject} (h : s.inbox = .access word d :: rest)
    (hd : decodeAccess word d = .error e) : nextMove s = .outside { s with inbox := rest } := by
  simp [nextMove, h, hd]

theorem nextMove_of_call (h : s.inbox = .call i :: rest) :
    nextMove s =
      if i.format = .call ∧ WellFormed i = true then .perform i { s with inbox := rest } else .illFormed := by
  simp [nextMove, h]

/-! ### The idle step -/

/-- `Update(clock)` has fuel for one dot, and that dot starts by `clock` (R137, R342). -/
theorem updateTo_clock (s : State) : updateTo s.clock s = dotStep s := by
  have one : s.clock + 1 - s.clock = 1 := Nat.add_sub_cancel_left ..
  simp [updateTo, one, runUntil]

theorem exec_update (time : Nat) (s : State) : exec (.update time) s = .next { updateTo time s with reply := .nothing } :=
  rfl

theorem step_of_idle (h : s.inbox = []) : step s = .next { dotStep s with reply := .nothing } := by
  rw [step_of_perform (nextMove_of_idle h), exec_update, updateTo_clock]

end Sys2Proof.Machine
end

section
open Sys2Proof Sys2Proof.Machine

/-- Settles O4: the head of the queue gives the move, and the move is what the step does. -/
theorem stepRunsTheDecodedInstruction : Obligations.StepRunsTheDecodedInstruction := by
  intro s rest
  refine ⟨fun word d i h hd => ?access, fun word d e h hd => ?outside, fun i h hf hw => ?call, fun i h hn => ?illFormed,
    step_of_idle⟩
  case access => exact step_of_perform (nextMove_of_decoded h hd)
  case outside => exact step_of_outside (nextMove_of_undecoded h hd)
  case call => exact step_of_perform (by rw [nextMove_of_call h, if_pos ⟨hf, hw⟩])
  case illFormed => exact step_of_illFormed (by rw [nextMove_of_call h, if_neg hn])

end

section
/-! What a dot micro-operation can do, said once, and that a dot keeps whatever its parts keep. -/

namespace Sys2Proof.Machine

/-- `t` differs from `s` only in the flags, the latches, `v`, OAMADDR, the bus and the draw counter: what a
micro-operation moves that neither invariant reads. -/
def QuietFrame (s t : State) : Prop :=
  t = { s with
    vblSuppress := t.vblSuppress, vbl := t.vbl, s0hit := t.s0hit, ovf := t.ovf, oamAddr := t.oamAddr, v := t.v
    ntLatch := t.ntLatch, atLatch := t.atLatch, ptLo := t.ptLo, ptHi := t.ptHi, shLo := t.shLo, shHi := t.shHi
    atShLo := t.atShLo, atShHi := t.atShHi, sprLo := t.sprLo, lastBus := t.lastBus, trace := t.trace
    draws := t.draws }

theorem QuietFrame.wf {s t : State} (h : QuietFrame s t) (hs : s.wf = true) : t.wf = true := by rw [h]; exact hs

theorem QuietFrame.onSchedule {s t : State} (h : QuietFrame s t) (hs : s.onSchedule = true) : t.onSchedule = true := by
  rw [h]; exact hs

/-- A write of output slots keeps their number and their eight pixels each (R50). -/
def SlotsKept (before after : List (Option OutSlot)) : Prop :=
  after.length = before.length ∧ (before.all slotWf = true → after.all slotWf = true)

theorem SlotsKept.set (l : List (Option OutSlot)) (k : Nat) {o : Option OutSlot} (h : slotWf o = true) :
    SlotsKept l (l.set k o) := by
  refine ⟨List.length_set .., fun hl => List.all_eq_true.mpr fun p hp => ?_⟩
  rcases List.mem_or_eq_of_mem_set hp with hp | rfl
  · exact List.all_eq_true.mp hl p hp
  · exact h

theorem SlotsKept.trans {a b c : List (Option OutSlot)} (h : SlotsKept a b) (k : SlotsKept b c) : SlotsKept a c :=
  ⟨k.1.trans h.1, k.2 ∘ h.2⟩

/-- The slot of an entry has eight pixels (R252). -/
theorem slotOf_wf (e : Option SprEntry) (hi lo : Byte) : slotWf (slotOf e hi lo) = true := by
  cases e with
  | none => rfl
  | some f => simp [slotOf, slotWf, sprPixels]

/-- The extra slots are filled with slots of eight pixels (R253). -/
theorem foldl_fillExtra_slots (ks : List Nat) (s : State) :
    ∃ ob n, ks.foldl fillExtra s = { s with obuf := ob, draws := n } ∧ SlotsKept s.obuf ob := by
  induction ks generalizing s with
  | nil => exact ⟨s.obuf, s.draws, rfl, rfl, id⟩
  | cons k ks ih =>
    obtain ⟨o, n, h, ho⟩ := fillExtra_eq s k
    obtain ⟨ob, m, h', hk⟩ := ih (fillExtra s k)
    have hw : slotWf o = true := by
      cases o with
      | none => rfl
      | some p => obtain ⟨e, hi, lo, -, hp⟩ := ho p rfl; exact hp ▸ slotOf_wf (some e) hi lo
    rw [h] at h' hk
    exact ⟨ob, m, by rw [List.foldl_cons, h, h'], (SlotsKept.set s.obuf k hw).trans hk⟩

/-- The selection holds no more entries than the limit (R244). -/
theorem length_evalLoop (s : State) (line cap left n : Nat) (sec : List SprEntry) (h : sec.length ≤ cap) :
    (evalLoop s line cap left n sec).1.length ≤ cap := by
  induction left generalizing n sec with
  | zero => exact h
  | succ left ih =>
    unfold evalLoop
    split
    · split
      · exact ih _ _ (by simp; omega)
      · exact ih _ _ h
    · exact h

/-- What a dot micro-operation can do: a quiet move, the warm-up count, a pixel, an evaluation, a write of output slots,
or the skip test. -/
inductive MicroEffect (s : State) : State → Prop
  | quiet {t : State} (h : QuietFrame s t) : MicroEffect s t
  | warmCount : MicroEffect s (microWarmCount s)
  | pixel (hit : Bool) (c : Nat) (i : BitVec 5) : MicroEffect s (emitPixel c i { s with s0hit := hit })
  | eval : MicroEffect s (microEval s)
  | slots {t : State} {ob : List (Option OutSlot)} (h : QuietFrame s t) (hk : SlotsKept s.obuf ob) :
      MicroEffect s { t with obuf := ob }
  | skip : MicroEffect s (microSkip s)

theorem busFetch_quiet (a : BusAddr) (s : State) : QuietFrame s (busFetch a s).2 := by
  obtain ⟨n, h⟩ := busFetch_snd a s
  rw [h]; rfl

theorem microVblSet_quiet (s : State) : QuietFrame s (microVblSet s) := by unfold microVblSet; split <;> rfl

theorem microNt_quiet (s : State) : QuietFrame s (microNt s) := by obtain ⟨n, h⟩ := microNt_eq s; rw [h]; rfl

theorem microAt_quiet (s : State) : QuietFrame s (microAt s) := by obtain ⟨n, h⟩ := microAt_eq s; rw [h]; rfl

theorem microPtLo_quiet (s : State) : QuietFrame s (microPtLo s) := by obtain ⟨n, h⟩ := microPtLo_eq s; rw [h]; rfl

theorem microPtHi_quiet (s : State) : QuietFrame s (microPtHi s) := by obtain ⟨n, h⟩ := microPtHi_eq s; rw [h]; rfl

theorem microSprLo_quiet (s : State) : QuietFrame s (microSprLo s) := by obtain ⟨n, h⟩ := microSprLo_eq s; rw [h]; rfl

theorem microSprHi_effect (s : State) : MicroEffect s (microSprHi s) := by
  obtain ⟨n, h⟩ := microSprHi_eq s
  rw [h]
  exact .slots (t := { emitBus _ s with draws := n }) rfl (.set _ _ (slotOf_wf ..))

theorem microSprExtra_effect (s : State) : MicroEffect s (microSprExtra s) := by
  obtain ⟨ob, n, h, hk⟩ := foldl_fillExtra_slots ((List.range 56).map (· + 8)) s
  rw [microSprExtra, h]
  exact .slots (t := { s with draws := n }) rfl hk

/-- Every micro-operation has a next state, and one of these effects. -/
theorem exec_dot {i : Instr} (hi : i.format = .dot) (s : State) : ∃ t, exec i s = .next t ∧ MicroEffect s t := by
  cases i <;> cases hi
  case dotVblSet => exact ⟨_, rfl, .quiet (microVblSet_quiet s)⟩
  case dotVblClr => exact ⟨_, rfl, .quiet rfl⟩
  case dotWarmCount => exact ⟨_, rfl, .warmCount⟩
  case dotPixel => exact ⟨_, rfl, .pixel ..⟩
  case dotPixelOff => exact ⟨_, rfl, .pixel s.s0hit ..⟩
  case dotShift => exact ⟨_, rfl, .quiet rfl⟩
  case dotNt => exact ⟨_, rfl, .quiet (microNt_quiet s)⟩
  case dotAt => exact ⟨_, rfl, .quiet (microAt_quiet s)⟩
  case dotPtLo => exact ⟨_, rfl, .quiet (microPtLo_quiet s)⟩
  case dotPtHi => exact ⟨_, rfl, .quiet (microPtHi_quiet s)⟩
  case dotIncX => exact ⟨_, rfl, .quiet rfl⟩
  case dotIncY => exact ⟨_, rfl, .quiet rfl⟩
  case dotEval => exact ⟨_, rfl, .eval⟩
  case dotHCopy => exact ⟨_, rfl, .quiet rfl⟩
  case dotVCopy => exact ⟨_, rfl, .quiet rfl⟩
  case dotOamZero => exact ⟨_, rfl, .quiet rfl⟩
  case dotSprNt2 => exact ⟨_, rfl, .quiet (busFetch_quiet ..)⟩
  case dotSprNt4 => exact ⟨_, rfl, .quiet (busFetch_quiet ..)⟩
  case dotSprLo => exact ⟨_, rfl, .quiet (microSprLo_quiet s)⟩
  case dotSprHi => exact ⟨_, rfl, microSprHi_effect s⟩
  case dotSprExtra => exact ⟨_, rfl, microSprExtra_effect s⟩
  case dotDummyNt338 => exact ⟨_, rfl, .quiet (busFetch_quiet ..)⟩
  case dotDummyNt340 => exact ⟨_, rfl, .quiet (busFetch_quiet ..)⟩
  case dotSkip => exact ⟨_, rfl, .skip⟩
  case dotIdle => exact ⟨_, rfl, .quiet rfl⟩

/-! ### A dot keeps what its parts keep -/

/-- What every micro-operation keeps (R176). -/
def MicroKeeps (P : State → Prop) : Prop :=
  ∀ i : Instr, i.format = .dot → ∀ s t : State, exec i s = .next t → P s → P t

/-- What every effect of a micro-operation keeps, every micro-operation keeps. -/
theorem MicroKeeps.of_effect {P : State → Prop} (h : ∀ s t, MicroEffect s t → P s → P t) : MicroKeeps P := by
  intro i hi s t he hs
  obtain ⟨u, hu, hk⟩ := exec_dot hi s
  cases hu.symm.trans he
  exact h s _ hk hs

theorem gate_keeps {P : State → Prop} {c : Bool} {f : State → State} (hf : ∀ s, P s → P (f s)) {s : State} (hs : P s) :
    P (gate c f s) := by
  unfold gate; split
  · exact hf s hs
  · exact hs

section
variable {P : State → Prop} (hm : MicroKeeps P)
include hm

theorem bgFetchStep_keeps (dot : Nat) (s : State) (hs : P s) : P (bgFetchStep dot s) := by
  unfold bgFetchStep
  split
  · exact hm .dotNt rfl s _ rfl hs
  · exact hm .dotAt rfl s _ rfl hs
  · exact hm .dotPtLo rfl s _ rfl hs
  · exact gate_keeps (fun s => hm .dotIncY rfl s _ rfl) (hm .dotIncX rfl _ _ rfl (hm .dotPtHi rfl s _ rfl hs))
  · exact hs

theorem sprFetchStep_keeps (dot : Nat) (s : State) (hs : P s) : P (sprFetchStep dot s) := by
  unfold sprFetchStep
  split
  · exact hm .dotSprNt2 rfl s _ rfl hs
  · exact hm .dotSprNt4 rfl s _ rfl hs
  · exact hm .dotSprLo rfl s _ rfl hs
  · exact gate_keeps (fun s => hm .dotSprExtra rfl s _ rfl) (hm .dotSprHi rfl s _ rfl hs)
  · exact hs

theorem renderOps_keeps (visible pre : Bool) (dot : Nat) (s : State) (hs : P s) : P (renderOps visible pre dot s) := by
  unfold renderOps
  dsimp only
  refine gate_keeps (fun s => hm .dotDummyNt340 rfl s _ rfl) ?_
  refine gate_keeps (fun s => hm .dotDummyNt338 rfl s _ rfl) ?_
  refine gate_keeps (sprFetchStep_keeps hm dot) ?_
  refine gate_keeps (fun s => hm .dotOamZero rfl s _ rfl) ?_
  refine gate_keeps (fun s => hm .dotVCopy rfl s _ rfl) ?_
  refine gate_keeps (fun s => hm .dotHCopy rfl s _ rfl) ?_
  refine gate_keeps (fun s => hm .dotEval rfl s _ rfl) ?_
  refine gate_keeps (bgFetchStep_keeps hm dot) ?_
  refine gate_keeps (fun s => hm .dotShift rfl s _ rfl) ?_
  exact gate_keeps (fun s => hm .dotPixel rfl s _ rfl) hs

theorem dotBody_keeps (s : State) (hs : P s) : P (dotBody s) := by
  unfold dotBody
  dsimp only
  refine gate_keeps (fun s => hm .dotPixelOff rfl s _ rfl) ?_
  refine gate_keeps (renderOps_keeps hm _ _ _) ?_
  refine gate_keeps (fun s => hm .dotWarmCount rfl s _ rfl) ?_
  refine gate_keeps (fun s => hm .dotVblClr rfl s _ rfl) ?_
  exact gate_keeps (fun s => hm .dotVblSet rfl s _ rfl) hs

/-- What the micro-operations, the position advance, and a change of the clock and the request keep, a dot keeps. -/
theorem dotStep_keeps (ha : ∀ s, P s → P (advance s))
    (hc : ∀ s clock nmiReq, P s → P { s with clock := clock, nmiReq := nmiReq }) (s : State) (hs : P s) :
    P (dotStep s) := by
  have adv : P (dotAdvance (dotBody s)) := by
    unfold dotAdvance
    split
    · exact hm .dotSkip rfl _ _ rfl (dotBody_keeps hm s hs)
    · exact ha _ (dotBody_keeps hm s hs)
  exact hc (dotAdvance (dotBody s)) _ _ adv

end

/-- What every dot keeps, `Update` keeps. -/
theorem updateTo_keeps {P : State → Prop} (h : ∀ s, P s → P (dotStep s)) (time : Nat) (s : State) (hs : P s) :
    P (updateTo time s) :=
  runUntil_induct h _ time hs

end Sys2Proof.Machine
end

section
/-! What a port access can do, said once: the fields it writes, that the page tables and hooks stand, and that memory
stays well formed. -/

namespace Sys2Proof.Machine

/-- `t` is `s` after part of a port access: only the registers, the memories, the bus and the reply have moved; of a
substrate only the sources; and a well-formed state is still one (R33, R332). -/
structure PortEffect (s t : State) : Prop where
  frame : t = { s with
    latch := t.latch, ctrl := t.ctrl, mask := t.mask, vbl := t.vbl, vblSuppress := t.vblSuppress, nmiReq := t.nmiReq
    oamAddr := t.oamAddr, oam := t.oam, v := t.v, t := t.t, x := t.x, w := t.w, readBuf := t.readBuf
    pal := t.pal, chr := t.chr, nmt := t.nmt, lastBus := t.lastBus, trace := t.trace, draws := t.draws
    reply := t.reply }
  pages : ∀ x, t.sub x = { s.sub x with srcs := (t.sub x).srcs }
  wf : s.wf = true → t.wf = true

/-- A move of the registers alone: the memories stand. -/
theorem PortEffect.of_registers {s t : State}
    (h : t = { s with
      latch := t.latch, ctrl := t.ctrl, mask := t.mask, vbl := t.vbl, vblSuppress := t.vblSuppress, nmiReq := t.nmiReq
      oamAddr := t.oamAddr, v := t.v, t := t.t, x := t.x, w := t.w, readBuf := t.readBuf, lastBus := t.lastBus
      trace := t.trace, draws := t.draws, reply := t.reply }) : PortEffect s t where
  frame := by rw [h]
  pages x := by rw [h]; cases x <;> rfl
  wf hs := by rw [h]; exact hs

theorem PortEffect.refl (s : State) : PortEffect s s := .of_registers rfl

theorem PortEffect.trans {s t u : State} (h : PortEffect s t) (k : PortEffect t u) : PortEffect s u where
  frame := by rw [k.frame, h.frame]
  pages x := by rw [k.pages, h.pages]
  wf := k.wf ∘ h.wf

/-! ### Well-formedness, part by part -/

/-- The part of `State.wf` that is not about the sprite buffers, whose sizes depend on the sprite limit. -/
def State.memoriesWf (s : State) : Prop :=
  s.chr.wf = true ∧ s.nmt.wf = true ∧ oamWf s.oam = true ∧ palWf s.pal = true ∧ targetFits s.out = true ∧
    Cells.rising 0 s.cpu = true

theorem State.wf_iff {s : State} : s.wf = true ↔ s.memoriesWf ∧ s.spritesWf = true := by
  simp only [State.wf, State.memoriesWf, Bool.and_eq_true]
  tauto

theorem State.spritesWf_iff {s : State} : s.spritesWf = true ↔
    s.sec.length ≤ s.cfg.limit.cap ∧ s.obuf.length = s.cfg.limit.slots ∧ s.obuf.all slotWf = true := by
  simp only [State.spritesWf, Bool.and_eq_true, decide_eq_true_eq, and_assoc]

theorem State.memoriesWf.sub {s : State} (h : s.memoriesWf) (x : Sub) : (s.sub x).wf = true := by
  obtain ⟨hchr, hnmt, -⟩ := h
  cases x
  · exact hchr
  · exact hnmt

/-- A well-formed substrate in the place of another keeps the memories well formed. -/
theorem State.memoriesWf.setSub {s : State} (h : s.memoriesWf) (x : Sub) {c : Substrate} (hc : c.wf = true) :
    (s.setSub x c).memoriesWf := by
  obtain ⟨hchr, hnmt, hrest⟩ := h
  cases x
  · exact ⟨hc, hnmt, hrest⟩
  · exact ⟨hchr, hc, hrest⟩

theorem State.spritesWf_setSub (s : State) (x : Sub) (c : Substrate) : (s.setSub x c).spritesWf = s.spritesWf := by
  cases x <;> rfl

/-! ### Memory through the ports -/

/-- A `Poke` touches the sources alone. -/
theorem Substrate.pokeByte_pages (c : Substrate) (a : Nat) (d : Byte) :
    c.pokeByte a d = { c with srcs := (c.pokeByte a d).srcs } := by
  rcases Substrate.pokeByte_cases c a d with ⟨-, h⟩ | ⟨-, h⟩
  · rw [h]
  · rw [h]; rfl

theorem pokeSub_effect (x : Sub) (a : Nat) (d : Byte) (s : State) : PortEffect s (pokeSub x a d s) where
  frame := by cases x <;> rfl
  pages y := by
    unfold pokeSub
    by_cases h : x = y
    · subst y; rw [sub_setSub_same]; exact Substrate.pokeByte_pages ..
    · rw [sub_setSub_ne s _ h]
  wf hs := by
    obtain ⟨hmem, hspr⟩ := State.wf_iff.mp hs
    exact State.wf_iff.mpr
      ⟨hmem.setSub x (Substrate.pokeByte_wf (hmem.sub x) a d), (State.spritesWf_setSub ..).trans hspr⟩

theorem palWrite_effect (i : BitVec 5) (c : Colour) (s : State) : PortEffect s (s.palWrite i c) where
  frame := rfl
  pages x := by cases x <;> rfl
  wf hs := by
    obtain ⟨⟨hchr, hnmt, hoam, hpal, hrest⟩, hspr⟩ := State.wf_iff.mp hs
    exact State.wf_iff.mpr ⟨⟨hchr, hnmt, hoam, palWrite_wf hpal i c, hrest⟩, hspr⟩

theorem ppuWrite_effect (a : BusAddr) (d : Byte) (s : State) : PortEffect s (ppuWrite a d s) := by
  unfold ppuWrite
  split
  · exact pokeSub_effect ..
  · split
    · exact pokeSub_effect ..
    · exact palWrite_effect ..

theorem ppuRead_effect (a : BusAddr) (s : State) : PortEffect s (ppuRead a s).2 := by
  obtain ⟨n, h⟩ := ppuRead_snd a s
  rw [h]; exact .of_registers rfl

theorem emitBus_effect (a : BusAddr) (s : State) : PortEffect s (emitBus a s) := .of_registers rfl

theorem latchByte_effect (d : Byte) (s : State) : PortEffect s (latchByte d s) := .of_registers rfl

theorem increment_effect (s : State) : PortEffect s (increment s) := by
  unfold increment
  split <;> exact .of_registers rfl

/-! ### Port reads -/

theorem latched_effect {s : State} {r : Byte × State} (h : PortEffect s r.2) : PortEffect s (latched r).2 :=
  h.trans (.of_registers rfl)

theorem readLatch_effect (s : State) : PortEffect s (readLatch s).2 := latched_effect (.refl s)

theorem ovfBit_effect (s : State) : PortEffect s (ovfBit s).2 := by
  unfold ovfBit
  split <;> exact .of_registers rfl

theorem vblBit_effect (s : State) : PortEffect s (vblBit s).2 := by
  unfold vblBit
  split
  · exact .of_registers rfl
  · split <;> exact .of_registers rfl

theorem readStatus_effect (s : State) : PortEffect s (readStatus s).2 :=
  ((vblBit_effect s).trans (ovfBit_effect _)).trans (.of_registers rfl)

theorem readOamData_effect (s : State) : PortEffect s (readOamData s).2 := by
  unfold readOamData
  refine latched_effect ?_
  split <;> exact .of_registers rfl

theorem readDataIdle_effect (s : State) : PortEffect s (readDataIdle s).2 := by
  unfold readDataIdle
  dsimp only
  split <;> exact ((emitBus_effect _ s).trans (ppuRead_effect _ _)).trans (.of_registers rfl)

theorem readDataRendering_effect (s : State) : PortEffect s (readDataRendering s).2 := .of_registers rfl

theorem readData_effect (s : State) : PortEffect s (readData s).2 := by
  unfold readData
  refine (latched_effect ?_).trans (increment_effect _)
  split
  · exact readDataRendering_effect s
  · exact readDataIdle_effect s

theorem portRead_effect (p : BitVec 3) (s : State) : PortEffect s (portRead p s).2 := by
  unfold portRead
  split
  · exact readStatus_effect s
  · split
    · exact readOamData_effect s
    · split
      · exact readData_effect s
      · exact readLatch_effect s

/-! ### Port writes -/

theorem unlessWarming_effect {f : State → State} (hf : ∀ s, PortEffect s (f s)) (s : State) :
    PortEffect s (unlessWarming f s) := by
  unfold unlessWarming
  split
  · exact .refl s
  · exact hf s

theorem writeCtrl_effect (d : Byte) (s : State) : PortEffect s (writeCtrl d s) :=
  (latchByte_effect d s).trans (unlessWarming_effect (fun _ => .of_registers rfl) _)

theorem writeMask_effect (d : Byte) (s : State) : PortEffect s (writeMask d s) :=
  (latchByte_effect d s).trans (unlessWarming_effect (fun _ => .of_registers rfl) _)

/-- A store at the OAM pointer, which then moves (R313). -/
theorem oamStore_effect (d a : Byte) (s : State) :
    PortEffect s { s with oam := s.oam.write s.oamAddr.toNat (oamMask s.oamAddr.toNat d), oamAddr := a } where
  frame := rfl
  pages x := by cases x <;> rfl
  wf hs := by
    obtain ⟨⟨hchr, hnmt, hoam, hrest⟩, hspr⟩ := State.wf_iff.mp hs
    exact State.wf_iff.mpr ⟨⟨hchr, hnmt, oam_write_wf hoam s.oamAddr.isLt d, hrest⟩, hspr⟩

theorem writeOamData_effect (d : Byte) (s : State) : PortEffect s (writeOamData d s) := by
  unfold writeOamData
  refine (latchByte_effect d s).trans ?_
  dsimp only
  split
  · exact .of_registers rfl
  · exact oamStore_effect d _ (latchByte d s)

theorem scrollWrite_effect (d : Byte) (s : State) : PortEffect s (scrollWrite d s) := by
  unfold scrollWrite
  split <;> exact .of_registers rfl

theorem writeScroll_effect (d : Byte) (s : State) : PortEffect s (writeScroll d s) :=
  (latchByte_effect d s).trans (unlessWarming_effect (scrollWrite_effect d) _)

theorem addrSecond_effect (d : Byte) (s : State) : PortEffect s (addrSecond d s) := by
  unfold addrSecond
  dsimp only
  split <;> exact .of_registers rfl

theorem addrWrite_effect (d : Byte) (s : State) : PortEffect s (addrWrite d s) := by
  unfold addrWrite
  split
  · exact addrSecond_effect d s
  · exact .of_registers rfl

theorem writeAddr_effect (d : Byte) (s : State) : PortEffect s (writeAddr d s) :=
  (latchByte_effect d s).trans (unlessWarming_effect (addrWrite_effect d) _)

theorem writeData_effect (d : Byte) (s : State) : PortEffect s (writeData d s) := by
  unfold writeData
  refine (latchByte_effect d s).trans (.trans ?_ (increment_effect _))
  split
  · exact .refl _
  · exact (emitBus_effect _ _).trans (ppuWrite_effect _ _ _)

/-! ### DMA -/

theorem dmaRead_effect (a : CpuAddr) (s : State) : PortEffect s (dmaRead a s).2 := by
  unfold dmaRead
  split
  · exact portRead_effect ..
  · obtain ⟨n, h⟩ := cpuRead_snd a s
    rw [h]; exact .of_registers rfl

theorem dmaByte_effect (page : Byte) (s : State) (i : Nat) : PortEffect s (dmaByte page s i) :=
  (dmaRead_effect _ s).trans (writeOamData_effect _ _)

theorem foldl_dmaByte_effect (page : Byte) (l : List Nat) (s : State) : PortEffect s (l.foldl (dmaByte page) s) := by
  induction l generalizing s with
  | nil => exact .refl s
  | cons i l ih => exact (dmaByte_effect page s i).trans (ih _)

/-! ### The instructions -/

theorem portDone_effect {s u : State} (h : PortEffect s u) (r : Reply) :
    ∃ t, portDone s r u = .next t ∧ PortEffect s t :=
  ⟨_, rfl, h.trans (.of_registers rfl)⟩

/-- Every port access has a next state, and moves no more than this. -/
theorem exec_port {i : Instr} (hi : i.format = .port) (s : State) : ∃ t, exec i s = .next t ∧ PortEffect s t := by
  cases i <;> cases hi
  case rdCtrl => exact portDone_effect (readLatch_effect s) _
  case rdMask => exact portDone_effect (readLatch_effect s) _
  case rdStatus => exact portDone_effect (readStatus_effect s) _
  case rdOamAddr => exact portDone_effect (readLatch_effect s) _
  case rdOamData => exact portDone_effect (readOamData_effect s) _
  case rdScroll => exact portDone_effect (readLatch_effect s) _
  case rdAddr => exact portDone_effect (readLatch_effect s) _
  case rdData => exact portDone_effect (readData_effect s) _
  case wrCtrl d => exact portDone_effect (writeCtrl_effect d s) _
  case wrMask d => exact portDone_effect (writeMask_effect d s) _
  case wrStatus d => exact portDone_effect (latchByte_effect d s) _
  case wrOamAddr d => exact portDone_effect (s := s) (u := writeOamAddr d s) (.of_registers rfl) _
  case wrOamData d => exact portDone_effect (writeOamData_effect d s) _
  case wrScroll d => exact portDone_effect (writeScroll_effect d s) _
  case wrAddr d => exact portDone_effect (writeAddr_effect d s) _
  case wrData d => exact portDone_effect (writeData_effect d s) _
  case wrDma d => exact portDone_effect (foldl_dmaByte_effect d (List.range 256) s) _

theorem portEffect_of_exec {i : Instr} (hi : i.format = .port) {s t : State} (h : exec i s = .next t) :
    PortEffect s t := by
  obtain ⟨u, hu, he⟩ := exec_port hi s
  cases hu.symm.trans h
  exact he

end Sys2Proof.Machine
end

section
open Sys2Proof Sys2Proof.Machine

/-- Settles O11: every port access is made of moves of the registers, of single bytes of memory, and of nothing else. -/
theorem portAccessLeavesTheDotEngineAlone : Obligations.PortAccessLeavesTheDotEngineAlone := by
  intro i s t hi h
  have he := portEffect_of_exec hi h
  exact ⟨he.frame, he.pages⟩

end

section
/-! What a substrate call, a construction and a reset can do, said once. -/

namespace Sys2Proof.Machine

@[simp] theorem answer_wf (r : Reply) (s : State) : (answer r s).wf = s.wf := rfl

@[simp] theorem answer_onSchedule (r : Reply) (s : State) : (answer r s).onSchedule = s.onSchedule := rfl

/-! ### The substrate calls -/

/-- `t` is `s` after a call on the substrate: at most one substrate, the mirroring mode, the refusal mark, the draw
counter and the reply have moved, and a well-formed substrate is still one. -/
def SubstrateEffect (s t : State) : Prop :=
  ∃ (x : Sub) (c : Substrate), ((s.sub x).wf = true → c.wf = true) ∧
    t = { s.setSub x c with mirror := t.mirror, refused := t.refused, draws := t.draws, reply := t.reply }

/-- A call that leaves both substrates as they are. -/
theorem SubstrateEffect.of_flags {s t : State}
    (h : t = { s with mirror := t.mirror, refused := t.refused, draws := t.draws, reply := t.reply }) :
    SubstrateEffect s t :=
  ⟨.chr, s.chr, id, h⟩

theorem refuse_effect (r : Reason) (s : State) : SubstrateEffect s (refuse r s) := .of_flags rfl

theorem SubstrateEffect.memoriesWf {s t : State} (h : SubstrateEffect s t) (hs : s.memoriesWf) : t.memoriesWf := by
  obtain ⟨x, c, hc, ht⟩ := h
  rw [ht]
  exact hs.setSub x (hc (hs.sub x))

theorem SubstrateEffect.wf {s t : State} (h : SubstrateEffect s t) (hs : s.wf = true) : t.wf = true := by
  obtain ⟨hmem, hspr⟩ := State.wf_iff.mp hs
  refine State.wf_iff.mpr ⟨h.memoriesWf hmem, ?_⟩
  obtain ⟨x, c, -, ht⟩ := h
  rw [ht]
  exact (State.spritesWf_setSub ..).trans hspr

theorem SubstrateEffect.onSchedule {s t : State} (h : SubstrateEffect s t) (hs : s.onSchedule = true) :
    t.onSchedule = true := by
  obtain ⟨x, c, -, ht⟩ := h
  rw [ht]
  cases x <;> exact hs

theorem setMirror_effect {m : Mirror} {s t : State} (h : setMirror m s = .ok t) : SubstrateEffect s t := by
  rcases setMirror_cases m s with ⟨-, he⟩ | ⟨banks, -, hok, he⟩ | ⟨banks, -, -, he⟩
  · cases he.symm.trans h; exact .of_flags rfl
  · cases he.symm.trans h; exact ⟨.nmt, _, fun hc => Substrate.swap_wf hc hok, rfl⟩
  · cases he.symm.trans h

theorem execSet_effect (x : Sub) (src : Nat) (flags : Option (Bool × Bool)) (size : Nat) (contents : Option (List Byte))
    (s : State) : ∃ t, execSet x src flags size contents s = .next t ∧ SubstrateEffect s t := by
  unfold execSet
  dsimp only
  obtain ⟨readable, writable⟩ := flags.getD (((s.sub x).source src).readable, ((s.sub x).source src).writable)
  split
  · rename_i h
    have hsize : isPow2 size = true := (Bool.and_eq_true_iff.mp h).2
    exact ⟨_, rfl, x, (s.sub x).setSource src readable writable size (sourceContents s.draws contents),
      fun hc => Substrate.setSource_wf hc _ _ _ hsize (sourceContents_wf ..), by cases x <;> rfl⟩
  · exact ⟨_, rfl, refuse_effect ..⟩

theorem execSwapBank_effect (x : Sub) (run start src : Nat) (banks : List Nat) (s : State) :
    ∃ t, execSwapBank x run start src banks s = .next t ∧ SubstrateEffect s t := by
  unfold execSwapBank
  rcases swapBank_cases x run start src banks s with ⟨hok, he⟩ | ⟨-, he⟩
  · rw [he]; exact ⟨_, rfl, x, _, fun hc => Substrate.swap_wf hc hok, by cases x <;> rfl⟩
  · rw [he]; exact ⟨_, rfl, refuse_effect ..⟩

theorem execPeek_effect (x : Sub) (a : Nat) (s : State) : ∃ t, execPeek x a s = .next t ∧ SubstrateEffect s t := by
  obtain ⟨n, h⟩ := peekSub_snd x a s
  refine ⟨answer (.byte (peekSub x a s).1) (peekSub x a s).2, rfl, ?_⟩
  rw [h]; exact .of_flags rfl

theorem execPoke_effect (x : Sub) (a : Nat) (d : Byte) (s : State) :
    ∃ t, execPoke x a d s = .next t ∧ SubstrateEffect s t :=
  ⟨_, rfl, x, _, fun hc => Substrate.pokeByte_wf hc a d, by cases x <;> rfl⟩

theorem setHook_effect (x : Sub) (p : Nat) (h : Option Nat) (s : State) : SubstrateEffect s (setHook x p h s) := by
  unfold setHook
  dsimp only
  split
  · exact ⟨x, _, fun hc => Substrate.setHook_wf hc p h, by cases x <;> rfl⟩
  · exact refuse_effect ..

theorem execSetMirroring_effect (code : Nat) (s : State) :
    ∃ t, execSetMirroring code s = .next t ∧ SubstrateEffect s t := by
  unfold execSetMirroring
  split
  · exact ⟨_, rfl, refuse_effect ..⟩
  · split
    · rename_i h
      obtain ⟨x, c, hc, ht⟩ := setMirror_effect h
      exact ⟨_, rfl, x, c, hc, by rw [ht]; rfl⟩
    · exact ⟨_, rfl, refuse_effect ..⟩

/-! ### Reset -/

/-- A reset empties the sprite buffers, so that it needs the memories alone to be well formed. -/
theorem resetTo_wf (hard : Bool) (time : Nat) {s : State} (h : s.memoriesWf) : (resetTo hard time s).wf = true := by
  obtain ⟨hchr, hnmt, hoam, hpal, hrest⟩ := h
  have hspr : (resetCommon time s).spritesWf = true := by simp [State.spritesWf, resetCommon, slotWf]
  cases hard
  · exact State.wf_iff.mpr ⟨⟨hchr, hnmt, hoam, hpal, hrest⟩, hspr⟩
  · exact State.wf_iff.mpr ⟨⟨hchr, drawCiram_wf hnmt _, rfl, rfl, hrest⟩, hspr⟩

/-- The ranges a state on schedule keeps (R32, R33, R35-R37). -/
theorem State.onSchedule_iff {s : State} : s.onSchedule = true ↔
    s.line.toNat < s.cfg.std.lines ∧ s.dot.toNat < s.cfg.std.dots ∧ s.odd = decide (s.frame % 2 = 1) ∧
      s.warmUp ≤ warmUpFrames ∧ s.burstPhase.toNat < 3 := by
  simp only [State.onSchedule, Bool.and_eq_true, decide_eq_true_eq, beq_iff_eq, and_assoc]

theorem Std.zero_lt_lines (std : Std) : 0 < std.lines := by cases std <;> decide

theorem Std.zero_lt_dots (std : Std) : 0 < std.dots := by cases std <;> decide

theorem resetTo_onSchedule (hard : Bool) (time : Nat) (s : State) : (resetTo hard time s).onSchedule = true := by
  have common : (resetCommon time s).onSchedule = true := State.onSchedule_iff.mpr
    ⟨Std.zero_lt_lines _, Std.zero_lt_dots _, rfl, Nat.le_refl _, Nat.zero_lt_succ 2⟩
  cases hard
  · exact common
  · exact common

/-! ### Construction -/

/-- A construction resets what it has built from geometries R90 allows, once the mirroring is set, or gives a reason
(R344). -/
theorem construct_cases (cfg : Setup) (chr nmt : Geometry) (s : State) :
    (∃ t, construct cfg chr nmt s = .ok (resetTo true 0 t) ∧ Geometry.ok chr = true ∧ Geometry.ok nmt = true ∧
      SubstrateEffect (rawInstance cfg chr nmt s) t) ∨
    ∃ r, construct cfg chr nmt s = .error r := by
  unfold construct
  split
  · rename_i hg
    obtain ⟨hchr, hnmt⟩ := Bool.and_eq_true_iff.mp hg
    split
    · exact .inl ⟨_, rfl, hchr, hnmt, setMirror_effect ‹_›⟩
    · exact .inr ⟨_, rfl⟩
  · exact .inr ⟨_, rfl⟩

theorem rawInstance_memoriesWf (cfg : Setup) {chr nmt : Geometry} (hc : Geometry.ok chr = true)
    (hn : Geometry.ok nmt = true) (hsrc : 0 < chr.nsrc) {s : State} (hs : s.memoriesWf) :
    (rawInstance cfg chr nmt s).memoriesWf := by
  obtain ⟨-, -, hoam, hpal, -, hcpu⟩ := hs
  have hplaceholder : ∀ n, ∀ src ∈ List.replicate n placeholderSource, src.wf = true := fun n src h =>
    List.eq_of_mem_replicate h ▸ rfl
  refine ⟨buildSubstrate_wf hc (by simpa using hsrc) (hplaceholder _), buildSubstrate_wf hn (by simp) ?_, hoam, hpal,
    rfl, hcpu⟩
  intro src h
  rcases List.mem_cons.mp h with rfl | h
  · decide
  · exact hplaceholder _ src h

theorem execConstruct_wf (cfg : Setup) {chr nmt : Geometry} (hw : WellFormed (.construct cfg chr nmt) = true)
    {s : State} (hs : s.wf = true) : ∃ t, execConstruct cfg chr nmt s = .next t ∧ t.wf = true := by
  have hsrc : 0 < chr.nsrc := by
    simp only [WellFormed, sourcesFit, Bool.and_eq_true, Bool.or_eq_true, decide_eq_true_eq] at hw; omega
  unfold execConstruct
  rcases construct_cases cfg chr nmt s with ⟨t, he, hc, hn, ht⟩ | ⟨r, he⟩
  · have hraw := rawInstance_memoriesWf cfg hc hn hsrc (State.wf_iff.mp hs).1
    rw [he]
    exact ⟨_, rfl, (answer_wf ..).trans (resetTo_wf true 0 (ht.memoriesWf hraw))⟩
  · rw [he]; exact ⟨_, rfl, hs⟩

theorem execConstruct_onSchedule (cfg : Setup) (chr nmt : Geometry) {s : State} (hs : s.onSchedule = true) :
    ∃ t, execConstruct cfg chr nmt s = .next t ∧ t.onSchedule = true := by
  unfold execConstruct
  rcases construct_cases cfg chr nmt s with ⟨t, he, -⟩ | ⟨r, he⟩
  · rw [he]; exact ⟨_, rfl, (answer_onSchedule ..).trans (resetTo_onSchedule true 0 t)⟩
  · rw [he]; exact ⟨_, rfl, hs⟩

end Sys2Proof.Machine
end

section
/-! The schedule invariant under the dot engine, and under every instruction but `Restore`. -/

namespace Sys2Proof.Machine

theorem PortEffect.onSchedule {s t : State} (h : PortEffect s t) (hs : s.onSchedule = true) : t.onSchedule = true := by
  rw [h.frame]; exact hs

/-! ### The position advance -/

/-- The burst phase is a residue modulo 3 (R348). -/
theorem nextBurst_lt (short : Bool) (s : State) : (nextBurst short s).toNat < 3 := by
  unfold nextBurst
  split
  · decide
  · rw [BitVec.toNat_ofNat]
    omega

theorem frameWrap_onSchedule (short : Bool) {s : State} (hs : s.onSchedule = true) :
    (frameWrap short s).onSchedule = true := by
  obtain ⟨-, -, -, hwarm, -⟩ := State.onSchedule_iff.mp hs
  exact State.onSchedule_iff.mpr
    ⟨Std.zero_lt_lines _, Std.zero_lt_dots _, rfl, hwarm, nextBurst_lt short s⟩

theorem advance_onSchedule (s : State) (hs : s.onSchedule = true) : (advance s).onSchedule = true := by
  obtain ⟨hline, hdot, hodd, hwarm, hburst⟩ := State.onSchedule_iff.mp hs
  unfold advance
  split
  · rename_i h
    refine State.onSchedule_iff.mpr ⟨hline, ?_, hodd, hwarm, hburst⟩
    have : (s.dot + 1).toNat ≤ s.dot.toNat + 1 := by rw [BitVec.toNat_add]; exact Nat.mod_le ..
    show (s.dot + 1).toNat < s.cfg.std.dots
    omega
  · split
    · rename_i h
      refine State.onSchedule_iff.mpr ⟨?_, Std.zero_lt_dots _, hodd, hwarm, hburst⟩
      have : (s.line + 1).toNat ≤ s.line.toNat + 1 := by rw [BitVec.toNat_add]; exact Nat.mod_le ..
      have hpre : s.cfg.std.pre + 1 = s.cfg.std.lines := by cases s.cfg.std <;> rfl
      show (s.line + 1).toNat < s.cfg.std.lines
      omega
    · exact frameWrap_onSchedule false hs

theorem microSkip_onSchedule {s : State} (hs : s.onSchedule = true) : (microSkip s).onSchedule = true := by
  unfold microSkip
  split
  · exact frameWrap_onSchedule true hs
  · exact advance_onSchedule s hs

/-! ### A dot -/

theorem MicroEffect.onSchedule {s t : State} (h : MicroEffect s t) (hs : s.onSchedule = true) :
    t.onSchedule = true := by
  cases h with
  | quiet h => exact h.onSchedule hs
  | warmCount =>
    obtain ⟨hline, hdot, hodd, hwarm, hburst⟩ := State.onSchedule_iff.mp hs
    exact State.onSchedule_iff.mpr ⟨hline, hdot, hodd, (Nat.sub_le ..).trans hwarm, hburst⟩
  | pixel hit c i =>
    rcases emitPixel_eq c i { s with s0hit := hit } with ⟨-, -, -, h⟩ | ⟨-, h⟩
    · rw [h]; exact hs
    · rw [h]; exact hs
  | eval => exact hs
  | slots h _ => exact h.onSchedule hs
  | skip => exact microSkip_onSchedule hs

theorem microKeeps_onSchedule : MicroKeeps fun s => s.onSchedule = true := .of_effect fun _ _ h => h.onSchedule

theorem dotStep_onSchedule (s : State) (hs : s.onSchedule = true) : (dotStep s).onSchedule = true :=
  dotStep_keeps microKeeps_onSchedule advance_onSchedule (fun _ _ _ h => h) s hs

/-! ### The calls -/

/-- Every call but `Restore` has a next state, and it is on schedule. -/
theorem exec_call_onSchedule {i : Instr} (hi : i.format = .call) (hr : ∀ chunks, i ≠ .restore chunks) {s : State}
    (hs : s.onSchedule = true) : ∃ t, exec i s = .next t ∧ t.onSchedule = true := by
  have keeps : ∀ {o : Host.Outcome State Fault Refusal}, (∃ t, o = .next t ∧ SubstrateEffect s t) →
      ∃ t, o = .next t ∧ t.onSchedule = true := fun ⟨t, ht, he⟩ => ⟨t, ht, he.onSchedule hs⟩
  cases i <;> cases hi
  case set => exact keeps (execSet_effect ..)
  case swapBank => exact keeps (execSwapBank_effect ..)
  case peek => exact keeps (execPeek_effect ..)
  case poke => exact keeps (execPoke_effect ..)
  case installHook => exact keeps ⟨_, rfl, setHook_effect ..⟩
  case removeHook => exact keeps ⟨_, rfl, setHook_effect ..⟩
  case setMirroring => exact keeps (execSetMirroring_effect ..)
  case construct => exact execConstruct_onSchedule _ _ _ hs
  case reset hard time => exact ⟨_, rfl, (answer_onSchedule ..).trans (resetTo_onSchedule hard time s)⟩
  case update time => exact ⟨_, rfl, updateTo_keeps dotStep_onSchedule time s hs⟩
  case beginFrame => exact ⟨_, rfl, hs⟩
  case endFrame => exact ⟨_, rfl, hs⟩
  case ackNmi => exact ⟨_, rfl, hs⟩
  case snapshot => exact ⟨_, rfl, hs⟩
  case restore chunks => exact absurd rfl (hr chunks)

end Sys2Proof.Machine
end

section
open Sys2Proof Sys2Proof.Machine

/-- Settles O9, by the kind of the instruction: a port access moves nothing the invariant reads; a call moves none of
it, sets it anew, or runs whole dots; a micro-operation lowers the warm-up count, advances the position, or moves none of
it. -/
theorem instructionsKeepTheSchedule : Obligations.InstructionsKeepTheSchedule := by
  intro i s t hr hs h
  cases hi : i.format with
  | port => exact (portEffect_of_exec hi h).onSchedule hs
  | call =>
    obtain ⟨u, hu, hk⟩ := exec_call_onSchedule hi hr hs
    cases hu.symm.trans h
    exact hk
  | dot => exact microKeeps_onSchedule i hi s t h hs

end

section
/-! What a chunk can be read into, decoder by decoder: only what is well formed (R353). -/

namespace Sys2Proof.Machine

/-! ### Decoders -/

/-- Every value a decoder gives has a property. -/
def Yields {α : Type} (d : Dec α) (P : α → Prop) : Prop :=
  ∀ bytes a rest, d bytes = some (a, rest) → P a

section
variable {α β : Type} {P : β → Prop}

/-- A decoder that reads a value first and then goes on. -/
theorem Yields.bind {d : Dec α} {k : α × List Byte → Option (β × List Byte)} {Q : α → Prop} (hd : Yields d Q)
    (hk : ∀ a, Q a → Yields (fun bytes => k (a, bytes)) P) : Yields (fun bytes => d bytes >>= k) P := by
  intro bytes b rest h
  obtain ⟨⟨a, bytes'⟩, hr, h⟩ := Option.bind_eq_some_iff.mp h
  exact hk a (hd _ _ _ hr) _ _ _ h

theorem Yields.anything (d : Dec α) : Yields d fun _ => True := fun _ _ _ _ => trivial

/-- A decoder that reads first a value of which nothing need be known. -/
theorem Yields.skip {d : Dec α} {k : α × List Byte → Option (β × List Byte)}
    (hk : ∀ a, Yields (fun bytes => k (a, bytes)) P) : Yields (fun bytes => d bytes >>= k) P :=
  .bind (.anything d) fun a _ => hk a

theorem Yields.pure {b : β} (h : P b) : Yields (fun bytes => some (b, bytes)) P := by
  intro bytes a rest he
  cases he
  exact h

theorem Yields.none : Yields (fun _ => .none) P := fun _ _ _ h => nomatch h

theorem Yields.ite {c : Prop} [Decidable c] {d e : Dec β} (hd : c → Yields d P) (he : ¬c → Yields e P) :
    Yields (fun bytes => if c then d bytes else e bytes) P := by
  intro bytes a rest h
  split at h
  · exact hd ‹_› _ _ _ h
  · exact he ‹_› _ _ _ h

theorem Yields.times {f : Dec β} (n : Nat) (h : Yields f P) :
    Yields (decTimes n f) fun l => l.length = n ∧ ∀ b ∈ l, P b := by
  induction n with
  | zero => exact .pure ⟨rfl, by simp⟩
  | succ n ih =>
    exact .bind h fun b hb => .bind ih fun l ⟨hlen, hl⟩ =>
      .pure ⟨congrArg (· + 1) hlen, List.forall_mem_cons.mpr ⟨hb, hl⟩⟩

/-- One decoder for each element of a list. -/
theorem Yields.all {g : α → Dec β} (l : List α) (h : ∀ a ∈ l, Yields (g a) P) :
    Yields (decAll (l.map g)) fun bs => bs.length = l.length ∧ ∀ b ∈ bs, P b := by
  induction l with
  | nil => exact .pure ⟨rfl, by simp⟩
  | cons a l ih =>
    obtain ⟨ha, hl⟩ := List.forall_mem_cons.mp h
    exact .bind ha fun b hb => .bind (ih hl) fun bs ⟨hlen, hbs⟩ =>
      .pure ⟨congrArg (· + 1) hlen, List.forall_mem_cons.mpr ⟨hb, hbs⟩⟩

end

/-! ### Records -/

theorem decSec_length (cap : Nat) : Yields (decSec cap) fun sec => sec.length ≤ cap :=
  .skip fun n => .ite (fun h bytes sec rest he => (Yields.times n (.anything decEntry) bytes sec rest he).1.trans_le h)
    fun _ => .none

theorem decSlot_wf : Yields decSlot fun o => slotWf o = true := by
  unfold decSlot
  refine .skip fun full => ?_
  cases full
  · exact .pure rfl
  · exact .skip fun _ => .skip fun _ => .skip fun _ => .skip fun _ => .bind (.times 8 (.anything _)) fun px ⟨hpx, _⟩ =>
      .pure (decide_eq_true hpx)

theorem decPage_src (nsrc : Nat) : Yields (decPage nsrc) fun p => p.1.src < nsrc :=
  .skip fun _ => .ite (fun _ => .none) fun h => .skip fun _ => .skip fun _ => .pure (Nat.not_le.mp h)

theorem Source.wf_iff {src : Source} :
    src.wf = true ↔ src.bytes.wf = true ∧ isPow2 src.size = true ∧ src.rederivable = !src.writable := by
  simp only [Source.wf, Bool.and_eq_true, beq_iff_eq, and_assoc]

theorem decSourceHead_wf {src : Source} (h : src.wf = true) : Yields (decSourceHead src) fun u => u.wf = true := by
  obtain ⟨hbytes, -, -⟩ := Source.wf_iff.mp h
  exact .skip fun size => .skip fun r => .skip fun w =>
    .ite (fun hz => .pure (Source.wf_iff.mpr ⟨hbytes, hz, rfl⟩)) fun _ => .none

theorem decSourceBytes_wf {src : Source} (h : src.wf = true) : Yields (decSourceBytes src) fun u => u.wf = true := by
  obtain ⟨-, hsize, hrebuild⟩ := Source.wf_iff.mp h
  intro bytes u rest he
  unfold decSourceBytes at he
  split at he
  · cases he; exact h
  · split at he
    · cases he
    · cases he; exact Source.wf_iff.mpr ⟨Store.ofBytes_wf _, hsize, hrebuild⟩

/-! ### Substrates -/

theorem decPages_wf {c : Substrate} (h : c.wf = true) : Yields (decPages c) fun c' => c'.wf = true := by
  obtain ⟨hs, hp, hm, hl, -, -, ha⟩ := Substrate.wf_iff.mp h
  refine .bind (.times _ (decPage_src c.nsrc)) fun l ⟨hlen, hsrc⟩ =>
    .pure (Substrate.wf_iff.mpr ⟨hs, hp, hm, ?_, ?_, ?_, ha⟩)
  · exact (List.length_map ..).trans (hlen.trans hl)
  · exact (List.length_map ..).trans (hlen.trans hl)
  · intro e he
    obtain ⟨p, hmem, rfl⟩ := List.mem_map.mp he
    exact hsrc p hmem

/-- As many well-formed sources in place of the old ones keep a substrate well formed. -/
theorem Substrate.withSources_wf {c : Substrate} (h : c.wf = true) {srcs : List Source}
    (hl : srcs.length = c.srcs.length) (hw : ∀ src ∈ srcs, src.wf = true) :
    ({ c with srcs } : Substrate).wf = true := by
  obtain ⟨hs, hp, hm, hpt, hk, hn, -⟩ := Substrate.wf_iff.mp h
  exact Substrate.wf_iff.mpr ⟨hs, hp, hm, hpt, hk, fun e he => (hn e he).trans_eq hl.symm, hw⟩

theorem Substrate.srcs_wf {c : Substrate} (h : c.wf = true) : ∀ src ∈ c.srcs, src.wf = true := by
  obtain ⟨-, -, -, -, -, -, ha⟩ := Substrate.wf_iff.mp h
  exact ha

theorem decHeads_wf {c : Substrate} (h : c.wf = true) : Yields (decHeads c) fun c' => c'.wf = true :=
  .bind (.all c.srcs fun src hsrc => decSourceHead_wf (Substrate.srcs_wf h src hsrc)) fun _ ⟨hl, hw⟩ =>
    .pure (Substrate.withSources_wf h hl hw)

theorem decBytes_wf {c : Substrate} (h : c.wf = true) : Yields (decBytes c) fun c' => c'.wf = true :=
  .bind (.all c.srcs fun src hsrc => decSourceBytes_wf (Substrate.srcs_wf h src hsrc)) fun _ ⟨hl, hw⟩ =>
    .pure (Substrate.withSources_wf h hl hw)

/-! ### Chunks -/

/-- The store of 256 bytes read is an OAM: the bits that do not exist are masked out (R128). -/
theorem oamOfBytes_wf {l : List Byte} (hl : l.length = 256) : oamWf (oamOfBytes l) = true := by
  simp only [oamWf, Bool.and_eq_true, List.all_eq_true, decide_eq_true_eq]
  refine ⟨⟨Store.ofBytes_wf _, ?_⟩, fun c hc => ?_⟩
  · have hlen : ((List.range l.length).map fun i => oamMask i (l.getD i 0)).length = 256 := by simp [hl]
    exact hlen ▸ Store.ofBytes_below _
  · obtain ⟨-, -, hb⟩ := Cells.mem_ofBytes hc
    rw [Nat.sub_zero, List.getElem?_map] at hb
    obtain ⟨i, hi, hv⟩ := Option.map_eq_some_iff.mp hb
    obtain ⟨hlt, rfl⟩ := List.getElem?_eq_some_iff.mp hi
    rw [← hv, List.getElem_range, oamMask_oamMask]

section
variable {s : State} (h : s.wf = true)
include h

theorem decRegPorts_wf : Yields (decRegPorts s) fun t => t.wf = true :=
  .skip fun _ => .skip fun _ => .skip fun _ => .skip fun _ => .skip fun _ => .skip fun _ => .skip fun _ =>
    .skip fun _ => .pure h

theorem decRegEngine_wf : Yields (decRegEngine s) fun t => t.wf = true :=
  .skip fun _ => .skip fun _ => .skip fun _ => .skip fun _ => .skip fun _ => .skip fun _ => .skip fun _ =>
    .skip fun _ => .pure h

theorem decRegPipeline_wf : Yields (decRegPipeline s) fun t => t.wf = true :=
  .skip fun _ => .skip fun _ => .skip fun _ => .skip fun _ => .skip fun _ => .skip fun _ => .skip fun _ =>
    .skip fun _ => .skip fun _ => .pure h

theorem decRegSprites_wf : Yields (decRegSprites s) fun t => t.wf = true := by
  obtain ⟨hmem, -⟩ := State.wf_iff.mp h
  refine .bind (decSec_length _) fun sec hsec => .bind (.times _ decSlot_wf) fun obuf ⟨hlen, hslots⟩ => .skip fun _ =>
    .pure (State.wf_iff.mpr ⟨hmem, ?_⟩)
  exact State.spritesWf_iff.mpr ⟨hsec, hlen, List.all_eq_true.mpr hslots⟩

theorem decReg_wf : Yields (decReg s) fun t => t.wf = true :=
  .bind (decRegPorts_wf h) fun _ h => .bind (decRegEngine_wf h) fun _ h => .bind (decRegPipeline_wf h) fun _ h =>
    decRegSprites_wf h

theorem decScroll_wf : Yields (decScroll s) fun t => t.wf = true :=
  .skip fun _ => .skip fun _ => .skip fun _ => .skip fun _ => .skip fun _ => .pure h

theorem decOam_wf : Yields (decOam s) fun t => t.wf = true := by
  obtain ⟨⟨hchr, hnmt, -, hrest⟩, hspr⟩ := State.wf_iff.mp h
  exact .bind (.times 256 (.anything _)) fun l ⟨hl, _⟩ =>
    .pure (State.wf_iff.mpr ⟨⟨hchr, hnmt, oamOfBytes_wf hl, hrest⟩, hspr⟩)

theorem decPal_wf : Yields (decPal s) fun t => t.wf = true := by
  obtain ⟨⟨hchr, hnmt, hoam, -, hrest⟩, hspr⟩ := State.wf_iff.mp h
  refine .bind (.times 32 (.anything _)) fun l ⟨hl, _⟩ => .pure (State.wf_iff.mpr ⟨⟨hchr, hnmt, hoam, ?_, hrest⟩, hspr⟩)
  exact Bool.and_eq_true_iff.mpr ⟨Store.ofBytes_wf l, hl ▸ Store.ofBytes_below l⟩

theorem decBanks_wf : Yields (decBanks s) fun t => t.wf = true := by
  obtain ⟨⟨hchr, hnmt, hrest⟩, hspr⟩ := State.wf_iff.mp h
  exact .bind (decPages_wf hchr) fun _ hchr => .bind (decPages_wf hnmt) fun _ hnmt => .skip fun _ =>
    .bind (decHeads_wf hchr) fun _ hchr => .bind (decHeads_wf hnmt) fun _ hnmt =>
    .bind (decBytes_wf hchr) fun _ hchr => .bind (decBytes_wf hnmt) fun _ hnmt =>
    .pure (State.wf_iff.mpr ⟨⟨hchr, hnmt, hrest⟩, hspr⟩)

end

theorem wholly_eq_some {r : Option (State × List Byte)} {t : State} (h : wholly r = some t) : r = some (t, []) := by
  unfold wholly at h
  split at h
  · cases h; rfl
  · cases h

theorem restoreChunk_wf {s t : State} {c : Chunk} (h : restoreChunk s c = some t) (hs : s.wf = true) : t.wf = true := by
  unfold restoreChunk at h
  split at h
  · cases h
  · split at h
    · exact decReg_wf hs _ _ _ (wholly_eq_some h)
    · exact decScroll_wf hs _ _ _ (wholly_eq_some h)
    · exact decOam_wf hs _ _ _ (wholly_eq_some h)
    · exact decBanks_wf hs _ _ _ (wholly_eq_some h)
    · exact decPal_wf hs _ _ _ (wholly_eq_some h)
    · cases h; exact hs

theorem restoreAll_wf {chunks : List Chunk} {s t : State} (h : restoreAll chunks s = some t) (hs : s.wf = true) :
    t.wf = true := by
  induction chunks generalizing s with
  | nil => cases h; exact hs
  | cons c rest ih =>
    unfold restoreAll at h
    split at h
    · exact ih h (restoreChunk_wf ‹_› hs)
    · cases h

theorem execRestore_wf (chunks : List Chunk) {s : State} (hs : s.wf = true) :
    ∃ t, execRestore chunks s = .next t ∧ t.wf = true := by
  unfold execRestore
  split
  · rename_i t h
    have ht : t.wf = true := restoreAll_wf h hs
    exact ⟨_, rfl, ht⟩
  · exact ⟨_, rfl, hs⟩

end Sys2Proof.Machine
end

section
/-! The well-formedness of the state under the dot engine and under every call. -/

namespace Sys2Proof.Machine

/-! ### A dot -/

theorem MicroEffect.wf {s t : State} (h : MicroEffect s t) (hs : s.wf = true) : t.wf = true := by
  obtain ⟨⟨hchr, hnmt, hoam, hpal, hout, hcpu⟩, hspr⟩ := State.wf_iff.mp hs
  cases h with
  | quiet h => exact h.wf hs
  | warmCount => exact hs
  | pixel hit c i =>
    rcases emitPixel_eq c i { s with s0hit := hit } with ⟨-, hline, hc, h⟩ | ⟨-, h⟩
    · rw [h]
      have hcell : s.line.toNat * 256 + c < frameCells := by
        have : s.line.toNat < 240 := hline
        unfold frameCells; omega
      exact State.wf_iff.mpr ⟨⟨hchr, hnmt, hoam, hpal, target_write_wf hout hcell _, hcpu⟩, hspr⟩
    · rw [h]; exact hs
  | eval =>
    obtain ⟨-, hobuf, hslots⟩ := State.spritesWf_iff.mp hspr
    have hsec := length_evalLoop s s.line.toNat s.cfg.limit.cap 64 0 [] (Nat.zero_le _)
    exact State.wf_iff.mpr
      ⟨⟨hchr, hnmt, hoam, hpal, hout, hcpu⟩, State.spritesWf_iff.mpr ⟨hsec, hobuf, hslots⟩⟩
  | slots h hk =>
    obtain ⟨hsec, hobuf, hslots⟩ := State.spritesWf_iff.mp hspr
    rw [h]
    exact State.wf_iff.mpr ⟨⟨hchr, hnmt, hoam, hpal, hout, hcpu⟩,
      State.spritesWf_iff.mpr ⟨hsec, hk.1.trans hobuf, hk.2 hslots⟩⟩
  | skip => rw [microSkip_frame s]; exact hs

theorem microKeeps_wf : MicroKeeps fun s => s.wf = true := .of_effect fun _ _ h => h.wf

theorem advance_wf (s : State) (hs : s.wf = true) : (advance s).wf = true := by rw [advance_frame s]; exact hs

theorem dotStep_wf (s : State) (hs : s.wf = true) : (dotStep s).wf = true :=
  dotStep_keeps microKeeps_wf advance_wf (fun _ _ _ h => h) s hs

/-! ### The calls -/

/-- Every well-formed call has a next state, and it is well formed. -/
theorem exec_call_wf {i : Instr} (hi : i.format = .call) (hw : WellFormed i = true) {s : State} (hs : s.wf = true) :
    ∃ t, exec i s = .next t ∧ t.wf = true := by
  have keeps : ∀ {o : Host.Outcome State Fault Refusal}, (∃ t, o = .next t ∧ SubstrateEffect s t) →
      ∃ t, o = .next t ∧ t.wf = true := fun ⟨t, ht, he⟩ => ⟨t, ht, he.wf hs⟩
  cases i <;> cases hi
  case set => exact keeps (execSet_effect ..)
  case swapBank => exact keeps (execSwapBank_effect ..)
  case peek => exact keeps (execPeek_effect ..)
  case poke => exact keeps (execPoke_effect ..)
  case installHook => exact keeps ⟨_, rfl, setHook_effect ..⟩
  case removeHook => exact keeps ⟨_, rfl, setHook_effect ..⟩
  case setMirroring => exact keeps (execSetMirroring_effect ..)
  case construct => exact execConstruct_wf _ hw hs
  case reset hard time => exact ⟨_, rfl, (answer_wf ..).trans (resetTo_wf hard time (State.wf_iff.mp hs).1)⟩
  case update time => exact ⟨_, rfl, updateTo_keeps dotStep_wf time s hs⟩
  case beginFrame target =>
    obtain ⟨⟨hchr, hnmt, hoam, hpal, -, hcpu⟩, hspr⟩ := State.wf_iff.mp hs
    exact ⟨_, rfl, State.wf_iff.mpr ⟨⟨hchr, hnmt, hoam, hpal, hw, hcpu⟩, hspr⟩⟩
  case endFrame => exact ⟨_, rfl, hs⟩
  case ackNmi => exact ⟨_, rfl, hs⟩
  case snapshot => exact ⟨_, rfl, hs⟩
  case restore chunks => exact execRestore_wf chunks hs

end Sys2Proof.Machine
end

section
open Sys2Proof Sys2Proof.Machine

/-- Settles O8, by the head of the queue: a port access keeps the state well formed, a well-formed call does, and the
idle step is a dot, which does. -/
theorem stepKeepsTheStateWellFormed : Obligations.StepKeepsTheStateWellFormed := by
  intro s t hs h
  cases hq : s.inbox with
  | nil =>
    cases (step_of_idle hq).symm.trans h
    exact dotStep_wf s hs
  | cons r rest =>
    cases r with
    | access word d =>
      cases hd : decodeAccess word d with
      | ok i =>
        rw [step_of_perform (nextMove_of_decoded hq hd)] at h
        exact (portEffect_of_exec (decodeAccess_format hd) h).wf hs
      | error e =>
        cases (step_of_outside (nextMove_of_undecoded hq hd)).symm.trans h
        exact hs
    | call i =>
      have hmove := nextMove_of_call hq
      split at hmove
      · rename_i hc
        rw [step_of_perform hmove] at h
        obtain ⟨u, hu, hk⟩ := exec_call_wf (s := { s with inbox := rest }) hc.1 hc.2 hs
        cases hu.symm.trans h
        exact hk
      · cases (step_of_illFormed hmove).symm.trans h

end

section
/-! The state after reset, and what the two kinds of reset assign. -/

namespace Sys2Proof.Machine

/-- Drawing CIRAM's contents changes the bytes of source 0 alone (R60, R96). -/
theorem drawCiram_pages (base : Nat) (c : Substrate) :
    drawCiram base c = { c with srcs := (drawCiram base c).srcs } := by
  unfold drawCiram
  split <;> rfl

theorem drawCiram_length (base : Nat) (c : Substrate) : (drawCiram base c).srcs.length = c.srcs.length := by
  unfold drawCiram
  split
  · rfl
  · rename_i h
    rw [h]; rfl

theorem drawCiram_source (base : Nat) (c : Substrate) :
    (∀ i, 0 < i → (drawCiram base c).source i = c.source i) ∧
      (drawCiram base c).source 0 = { c.source 0 with bytes := ((drawCiram base c).source 0).bytes } := by
  unfold drawCiram
  split
  · exact ⟨fun _ _ => rfl, rfl⟩
  · rename_i ciram rest h
    refine ⟨fun i hi => ?_, ?_⟩
    · obtain ⟨j, rfl⟩ := Nat.exists_eq_succ_of_ne_zero (Nat.pos_iff_ne_zero.mp hi)
      simp [Substrate.source, h]
    · simp [Substrate.source, h]

/-- Whatever is stored, OAM reads without the bits that do not exist (R128). -/
theorem oamByte_missing_bits (s : State) {a : Nat} (h : a % 4 = 2) : s.oamByte a &&& 0x1C = 0 := by
  rw [State.oamByte, oamMask, if_pos h, BitVec.and_assoc]
  exact BitVec.and_zero

end Sys2Proof.Machine
end

section
open Sys2Proof Sys2Proof.Machine

/-- Settles O6, field by field of the closed state. -/
theorem resetStateHoldsTheGivenValues : Obligations.ResetStateHoldsTheGivenValues := by
  unfold Obligations.ResetStateHoldsTheGivenValues
  decide

/-- Settles O7: the memories by the model's own law, the schedule by evaluation. -/
theorem resetStateMeetsTheInvariants : Obligations.ResetStateMeetsTheInvariants :=
  ⟨State.reset_wf, by decide⟩

/-- Settles O43: the assigned fields are the model's update itself; CIRAM's draw touches the bytes of source 0 alone,
and OAM reads through its mask. -/
theorem resetAssignsItsTable : Obligations.ResetAssignsItsTable := by
  intro s time
  refine ⟨⟨_, rfl, rfl, ?_, ?_, ?_, ?_, ?_⟩, ⟨_, rfl, rfl⟩⟩
  · exact drawCiram_pages ..
  · exact drawCiram_length ..
  · exact (drawCiram_source ..).1
  · exact fun _ => (drawCiram_source ..).2
  · exact fun a => oamByte_missing_bits _

end

section
/-! The PPU bus: which memory an address reaches, one equation per range and direction, and the palette entry it names. -/

namespace Sys2Proof.Machine

variable {a : BusAddr} {s : State}

/-! ### The three ranges of the bus -/

theorem pattern_offset (h : a.toNat < 0x2000) : (a &&& 0x1FFF).toNat = a.toNat :=
  (Nat.and_two_pow_sub_one_eq_mod a.toNat 13).trans (Nat.mod_eq_of_lt h)

theorem nametable_offset (a : BusAddr) : (a &&& 0x0FFF).toNat = a.toNat % 0x1000 :=
  Nat.and_two_pow_sub_one_eq_mod a.toNat 12

theorem ppuRead_of_pattern (h : a.toNat < 0x2000) : ppuRead a s = peekSub .chr a.toNat s := by
  have below : a < 0x2000 := h
  rw [ppuRead, if_pos below, pattern_offset h]

theorem ppuWrite_of_pattern (d : Byte) (h : a.toNat < 0x2000) : ppuWrite a d s = pokeSub .chr a.toNat d s := by
  have below : a < 0x2000 := h
  rw [ppuWrite, if_pos below, pattern_offset h]

theorem ppuRead_of_nametable (h : 0x2000 ≤ a.toNat) (h' : a.toNat < 0x3F00) :
    ppuRead a s = peekSub .nmt (a.toNat % 0x1000) s := by
  have above : ¬a < 0x2000 := Nat.not_lt.mpr h
  have below : a < 0x3F00 := h'
  rw [ppuRead, if_neg above, if_pos below, nametable_offset]

theorem ppuWrite_of_nametable (d : Byte) (h : 0x2000 ≤ a.toNat) (h' : a.toNat < 0x3F00) :
    ppuWrite a d s = pokeSub .nmt (a.toNat % 0x1000) d s := by
  have above : ¬a < 0x2000 := Nat.not_lt.mpr h
  have below : a < 0x3F00 := h'
  rw [ppuWrite, if_neg above, if_pos below, nametable_offset]

theorem ppuRead_of_palette (h : 0x3F00 ≤ a.toNat) : ppuRead a s = ((s.palRead (a.setWidth 5)).setWidth 8, s) := by
  have above : ¬a < 0x2000 := Nat.not_lt.mpr (Nat.le_trans (by decide) h)
  have palette : ¬a < 0x3F00 := Nat.not_lt.mpr h
  rw [ppuRead, if_neg above, if_neg palette]

theorem ppuWrite_of_palette (d : Byte) (h : 0x3F00 ≤ a.toNat) :
    ppuWrite a d s = s.palWrite (a.setWidth 5) (d.setWidth 6) := by
  have above : ¬a < 0x2000 := Nat.not_lt.mpr (Nat.le_trans (by decide) h)
  have palette : ¬a < 0x3F00 := Nat.not_lt.mpr h
  rw [ppuWrite, if_neg above, if_neg palette]

/-! ### The palette entry of an address -/

/-- The sprite half's background slots name the background half's entries (R88). -/
theorem toNat_palIndex (i : BitVec 5) :
    (palIndex i).toNat = if i.toNat ∈ [0x10, 0x14, 0x18, 0x1C] then i.toNat - 0x10 else i.toNat := by
  decide +revert

theorem toNat_palIndex_setWidth (a : BusAddr) :
    (palIndex (a.setWidth 5)).toNat =
      if a.toNat % 32 ∈ [0x10, 0x14, 0x18, 0x1C] then a.toNat % 32 - 0x10 else a.toNat % 32 := by
  rw [toNat_palIndex, BitVec.toNat_setWidth]

/-- A palette entry has six bits (R89). -/
theorem setWidth_colour (d : Byte) : (d.setWidth 6).setWidth 8 = d &&& 0x3F := by
  decide +revert

end Sys2Proof.Machine
end

section
open Sys2Proof Sys2Proof.Machine

/-- Settles O22: each range is the model's own equation for it, the name table's offset being the address's low 12 bits. -/
theorem busAddressesReachTheirMemory : Obligations.BusAddressesReachTheirMemory := by
  intro a d s
  refine ⟨fun h => ?pattern, fun h h' => ?nametable, fun h h' => ?mirror, fun h => ?palette⟩
  case pattern => exact ⟨ppuRead_of_pattern h, ppuWrite_of_pattern d h⟩
  case nametable =>
    have offset : a.toNat - 0x2000 = a.toNat % 0x1000 := by omega
    rw [offset]
    exact ⟨ppuRead_of_nametable h (by omega), ppuWrite_of_nametable d h (by omega)⟩
  case mirror =>
    have offset : a.toNat - 0x3000 = a.toNat % 0x1000 := by omega
    rw [offset]
    exact ⟨ppuRead_of_nametable (by omega) h', ppuWrite_of_nametable d (by omega) h'⟩
  case palette =>
    refine ⟨s.palRead (a.setWidth 5), ppuRead_of_palette h, ?_⟩
    rw [State.palRead, toNat_palIndex_setWidth]

/-- Settles O23: two palette addresses share an entry exactly when they have the same palette index, and a read after a
write goes by the index. -/
theorem paletteWriteIsSeenAtItsMirrors : Obligations.PaletteWriteIsSeenAtItsMirrors := by
  intro a b d s hwf ha hb
  simp only [← toNat_palIndex_setWidth, BitVec.toNat_inj]
  rw [ppuWrite_of_palette d ha, ppuRead_of_palette hb, ppuRead_of_palette hb, palRead_palWrite hwf]
  split
  case isTrue => exact setWidth_colour d
  case isFalse => rfl

end

section
/-! The addresses of the rendering fetches, by their bits, and that a fetch leaves its own address on the bus. -/

namespace Sys2Proof.Machine

/-! ### Bounds of the parts an address is put together from -/

theorem toNat_or_lt {w k : Nat} {a b : BitVec w} (ha : a.toNat < 2 ^ k) (hb : b.toNat < 2 ^ k) :
    (a ||| b).toNat < 2 ^ k := by
  rw [BitVec.toNat_or]; exact Nat.or_lt_two_pow ha hb

theorem toNat_and_lt {w k : Nat} (a : BitVec w) {m : BitVec w} (hm : m.toNat < 2 ^ k) : (a &&& m).toNat < 2 ^ k := by
  rw [BitVec.toNat_and]; exact Nat.and_lt_two_pow _ hm

theorem toNat_setWidth_lt {w n k : Nat} {a : BitVec w} (ha : a.toNat < 2 ^ k) : (a.setWidth n).toNat < 2 ^ k := by
  rw [BitVec.toNat_setWidth]; exact Nat.lt_of_le_of_lt (Nat.mod_le ..) ha

theorem toNat_shiftLeft_lt {w k : Nat} {a : BitVec w} (n : Nat) (ha : a.toNat < 2 ^ k) :
    (a <<< n).toNat < 2 ^ (k + n) := by
  rw [BitVec.toNat_shiftLeft, Nat.shiftLeft_eq, Nat.pow_add]
  exact Nat.lt_of_le_of_lt (Nat.mod_le ..) (Nat.mul_lt_mul_of_pos_right ha (Nat.two_pow_pos n))

/-! ### Name table addresses -/

/-- A 12-bit offset from 0x2000 is an address of the name tables (R82). -/
theorem or_nametable_base_range {x : BusAddr} (h : x.toNat < 2 ^ 12) :
    0x2000 ≤ (0x2000 ||| x).toNat ∧ (0x2000 ||| x).toNat < 0x3000 := by
  have sum : (0x2000 ||| x).toNat = 0x2000 + x.toNat :=
    (BitVec.toNat_or ..).trans (Nat.two_pow_add_eq_or_of_lt h 2).symm
  omega

theorem ntAddr_range (v : VAddr) : 0x2000 ≤ (ntAddr v).toNat ∧ (ntAddr v).toNat < 0x3000 :=
  or_nametable_base_range (toNat_setWidth_lt (toNat_and_lt v (by decide)))

theorem atAddr_range (v : VAddr) : 0x2000 ≤ (atAddr v).toNat ∧ (atAddr v).toNat < 0x3000 := by
  have split : atAddr v = 0x2000 ||| (0x03C0 ||| (v &&& 0x0C00).setWidth 14 ||| ((v >>> 4) &&& 0x38).setWidth 14 |||
      ((v >>> 2) &&& 0x07).setWidth 14) := by
    simp only [atAddr, ← BitVec.or_assoc]; rfl
  rw [split]
  refine or_nametable_base_range (toNat_or_lt (toNat_or_lt (toNat_or_lt (by decide) ?_) ?_) ?_) <;>
    exact toNat_setWidth_lt (toNat_and_lt _ (by decide))

/-! ### Pattern addresses -/

/-- The pattern table select is bit 12 (R129, R213, R251). -/
theorem table_select_lt (b : Bool) : ((BitVec.ofBool b).setWidth 14 <<< 12 : BusAddr).toNat < 2 ^ 13 :=
  toNat_shiftLeft_lt (k := 1) 12 (toNat_setWidth_lt (BitVec.ofBool b).isLt)

theorem bgAddr_lt (ctrl nt : Byte) (v : VAddr) : (bgAddr ctrl nt v).toNat < 2 ^ 13 := by
  have tile : (nt.setWidth 14 <<< 4 : BusAddr).toNat < 2 ^ 12 := toNat_shiftLeft_lt 4 (toNat_setWidth_lt nt.isLt)
  have row : ((fineY v).setWidth 14).toNat < 2 ^ 3 := toNat_setWidth_lt (fineY v).isLt
  exact toNat_or_lt (toNat_or_lt (table_select_lt _) (by omega)) (by omega)

/-- A row of a sprite of `last + 1` rows is one of them, flipped or not (R251). -/
theorem flipRow_le (flip : Bool) {last r : BitVec 9} (h : r ≤ last) : flipRow flip last r ≤ last := by
  unfold flipRow
  split
  · rw [BitVec.le_def, BitVec.toNat_sub_of_le h]; exact Nat.sub_le ..
  · exact h

theorem sprAddr8_lt (ctrl tile : Byte) {r : BitVec 9} (h : r ≤ 7) : (sprAddr8 ctrl tile r).toNat < 2 ^ 13 := by
  have number : (tile.setWidth 14 <<< 4 : BusAddr).toNat < 2 ^ 12 := toNat_shiftLeft_lt 4 (toNat_setWidth_lt tile.isLt)
  have row : (r.setWidth 14).toNat < 2 ^ 3 := toNat_setWidth_lt (Nat.lt_succ_of_le h)
  exact toNat_or_lt (toNat_or_lt (table_select_lt _) (by omega)) (by omega)

/-- The two tiles of a tall sprite are an even one and the one after it: their number stays in eight bits (R251). -/
theorem tall_tile_lt (tile : Byte) {r : BitVec 9} (h : r ≤ 15) :
    ((tile &&& 0xFE).setWidth 14 + (r >>> 3).setWidth 14 : BusAddr).toNat < 2 ^ 8 := by
  have even : ((tile &&& 0xFE).setWidth 14).toNat ≤ 0xFE := by
    rw [BitVec.toNat_setWidth, BitVec.toNat_and]
    exact Nat.le_trans (Nat.mod_le ..) Nat.and_le_right
  have half : ((r >>> 3).setWidth 14).toNat ≤ 1 := by
    have h : r.toNat ≤ 15 := h
    rw [BitVec.toNat_setWidth, BitVec.toNat_ushiftRight, Nat.shiftRight_eq_div_pow]
    omega
  rw [BitVec.toNat_add]
  omega

theorem sprAddr16_lt (tile : Byte) {r : BitVec 9} (h : r ≤ 15) : (sprAddr16 tile r).toNat < 2 ^ 13 := by
  have table : ((tile &&& 1).setWidth 14 <<< 12 : BusAddr).toNat < 2 ^ 13 :=
    toNat_shiftLeft_lt (k := 1) 12 (toNat_setWidth_lt (toNat_and_lt tile (by decide)))
  have number := toNat_shiftLeft_lt 4 (tall_tile_lt tile h)
  have row : ((r &&& 7).setWidth 14).toNat < 2 ^ 3 := toNat_setWidth_lt (toNat_and_lt r (by decide))
  exact toNat_or_lt (toNat_or_lt table (by omega)) (by omega)

theorem mask_le {w : Nat} (a m : BitVec w) : a &&& m ≤ m := by
  rw [BitVec.le_def, BitVec.toNat_and]; exact Nat.and_le_right

theorem sprAddr_lt (ctrl : Byte) (e : Option SprEntry) (line : BitVec 9) : (sprAddr ctrl e line).toNat < 2 ^ 13 := by
  unfold sprAddr
  dsimp only
  split
  · exact sprAddr16_lt _ (flipRow_le _ (mask_le ..))
  · exact sprAddr8_lt _ _ (flipRow_le _ (mask_le ..))

/-- The high plane is 8 bytes above the low one, in the same pattern table (R129). -/
theorem high_plane_lt {a : BusAddr} (h : a.toNat < 2 ^ 13) : (a ||| 8).toNat < 2 ^ 13 := toNat_or_lt h (by decide)

/-! ### The address a fetch leaves on the bus -/

@[simp] theorem busFetch_lastBus (a : BusAddr) (s : State) : (busFetch a s).2.lastBus = a := by
  obtain ⟨n, h⟩ := busFetch_snd a s
  rw [h]; rfl

/-- The fetches of the name tables drive the tile's address or the attribute's (R211, R212, R220, R250). -/
theorem nametableFetch_lastBus {i : Instr} {s t : State}
    (hi : i ∈ [Instr.dotNt, .dotAt, .dotDummyNt338, .dotDummyNt340, .dotSprNt2, .dotSprNt4]) (h : exec i s = .next t) :
    t.lastBus = ntAddr s.v ∨ t.lastBus = atAddr s.v := by
  simp only [List.mem_cons, List.not_mem_nil, or_false] at hi
  rcases hi with rfl | rfl | rfl | rfl | rfl | rfl
  case inr.inl => cases h; exact .inr (busFetch_lastBus ..)
  all_goals cases h; exact .inl (busFetch_lastBus ..)

/-- The pattern fetches drive the background's or the sprite's pattern address, in either plane (R213, R215, R251,
R252). -/
theorem patternFetch_lastBus {i : Instr} {s t : State} (hi : i ∈ [Instr.dotPtLo, .dotPtHi, .dotSprLo, .dotSprHi])
    (h : exec i s = .next t) :
    ∃ a, (a = bgAddr s.ctrl s.ntLatch s.v ∨ a = sprAddr s.ctrl (s.slotEntry s.slot) s.line) ∧
      (t.lastBus = a ∨ t.lastBus = a ||| 8) := by
  simp only [List.mem_cons, List.not_mem_nil, or_false] at hi
  rcases hi with rfl | rfl | rfl | rfl <;> cases h
  · exact ⟨_, .inl rfl, .inl (busFetch_lastBus ..)⟩
  · exact ⟨_, .inl rfl, .inr (busFetch_lastBus ..)⟩
  · exact ⟨_, .inr rfl, .inl (busFetch_lastBus ..)⟩
  · exact ⟨_, .inr rfl, .inr (busFetch_lastBus ..)⟩

end Sys2Proof.Machine
end

section
open Sys2Proof Sys2Proof.Machine

/-- Settles O24, by the address each fetch drives and the bits that address is put together from. -/
theorem fetchesNeverReachThePalette : Obligations.FetchesNeverReachThePalette := by
  intro s t
  refine ⟨fun i hi h => ?nametable, fun i hi h => ?pattern⟩
  case nametable =>
    rcases nametableFetch_lastBus hi h with ht | ht <;> rw [ht]
    · exact ntAddr_range s.v
    · exact atAddr_range s.v
  case pattern =>
    obtain ⟨a, ha, ht⟩ := patternFetch_lastBus hi h
    have low : a.toNat < 2 ^ 13 := by
      rcases ha with rfl | rfl
      · exact bgAddr_lt ..
      · exact sprAddr_lt ..
    rcases ht with ht | ht <;> rw [ht]
    · exact low
    · exact high_plane_lt low

end

section
/-! The port decode by the rows of its table: which row selects an access word, what a row's instruction is encoded as,
and what an access is as bytes (R83, R120). -/

namespace Sys2Proof.Machine

variable {word : AccessWord} {d : Byte} {i : Instr} {r r' : PortRow}

/-! ### The decoder gives the one row that selects the word -/

theorem portRow_selects_iff : r.selects word = true ↔ word &&& r.mask = r.value := decide_eq_true_iff

/-- Two rows that select one word agree where both look at it. -/
theorem value_agrees_of_selects (h : r.selects word = true) (h' : r'.selects word = true) :
    r.value &&& (r.mask &&& r'.mask) = r'.value &&& (r.mask &&& r'.mask) := by
  rw [← portRow_selects_iff.mp h, ← portRow_selects_iff.mp h']
  ext k
  simp only [BitVec.getElem_and]
  cases word[k] <;> cases r.mask[k] <;> cases r'.mask[k] <;> rfl

/-- Rows are disjoint, so the first row that selects a word is the only one. -/
theorem decodeAccess_of_selects (hr : r ∈ portRows) (hs : r.selects word = true) (d : Byte) :
    decodeAccess word d = .ok (r.instr d) := by
  cases hf : portRows.find? fun r => r.selects word with
  | none => exact absurd hs (List.find?_eq_none.mp hf r hr)
  | some r' =>
    obtain ⟨hs', before, after, rows, hbefore⟩ := List.find?_eq_some_iff_append.mp hf
    have disjoint := portRows_disjoint
    rw [rows, List.pairwise_append, List.pairwise_cons] at disjoint
    obtain ⟨-, ⟨hafter, -⟩, -⟩ := disjoint
    have same : r = r' := by
      rw [rows, List.mem_append, List.mem_cons] at hr
      rcases hr with hr | same | hr
      · exact absurd hs (by simpa using hbefore r hr)
      · exact same
      · exact absurd (value_agrees_of_selects hs' hs) (hafter r hr)
    simp only [decodeAccess, hf, same]

theorem decodeAccess_of_none_selects (h : ∀ r ∈ portRows, ¬r.selects word = true) (d : Byte) :
    decodeAccess word d = .error .outsideBlock := by
  simp only [decodeAccess, List.find?_eq_none.mpr h]

theorem decodeAccess_ok_iff :
    decodeAccess word d = .ok i ↔ ∃ r ∈ portRows, r.selects word = true ∧ r.instr d = i := by
  constructor
  · intro h
    by_cases hs : ∃ r ∈ portRows, r.selects word = true
    · obtain ⟨r, hr, hs⟩ := hs
      exact ⟨r, hr, hs, Except.ok.inj ((decodeAccess_of_selects hr hs d).symm.trans h)⟩
    · cases (decodeAccess_of_none_selects (fun r hr hs' => hs ⟨r, hr, hs'⟩) d).symm.trans h
  · rintro ⟨r, hr, hs, rfl⟩
    exact decodeAccess_of_selects hr hs d

/-! ### The rows of the eight ports -/

/-- The access word of port `p` at its first address (R83, R120). -/
def portWord (read : Bool) (p : BitVec 3) : AccessWord := (if read then 0x12000 else 0x02000) ||| p.setWidth 17

/-- The instruction of a read or a write of port `p` (R120). -/
def portInstr (read : Bool) (p : BitVec 3) (d : Byte) : Instr := if read then readOfPort p else writeOfPort p d

theorem portRow_mem (read : Bool) (p : BitVec 3) : ⟨0x1E007, portWord read p, portInstr read p⟩ ∈ portRows := by
  have reads : readRows = List.ofFn fun k : Fin 8 => ⟨0x1E007, portWord true ⟨k⟩, portInstr true ⟨k⟩⟩ := rfl
  have writes : writeRows =
      (List.ofFn fun k : Fin 8 => ⟨0x1E007, portWord false ⟨k⟩, portInstr false ⟨k⟩⟩) ++
        [⟨0x1FFFF, 0x04014, .wrDma⟩] := rfl
  rw [portRows, List.mem_append]
  cases read
  case true => exact .inl (reads ▸ List.mem_ofFn.mpr ⟨p.toFin, rfl⟩)
  case false => exact .inr (writes ▸ List.mem_append_left _ (List.mem_ofFn.mpr ⟨p.toFin, rfl⟩))

/-- Bits 16 and 2:0 of a word are those of the port it names. -/
theorem and_0x10007 (word : AccessWord) :
    word &&& 0x10007 = (if word.getLsbD 16 then 0x10000 else 0) ||| (word.setWidth 3).setWidth 17 := by
  have top : word &&& 0x10000 = if word.getLsbD 16 then 0x10000 else 0 := BitVec.and_twoPow word 16
  have low : word &&& 0x7 = (word.setWidth 3).setWidth 17 := by
    ext k hk
    interval_cases k <;> simp
  rw [← top, ← low, ← BitVec.and_or_distrib_left]
  rfl

/-- With the block's address in bits 15:13, bits 16, 15:13 and 2:0 make the word of a port. -/
theorem and_portMask (h : word &&& 0x0E000 = 0x02000) :
    word &&& 0x1E007 = portWord (word.getLsbD 16) (word.setWidth 3) :=
  calc word &&& 0x1E007
      = word &&& 0x0E000 ||| word &&& 0x10007 := by rw [← BitVec.and_or_distrib_left]; rfl
    _ = portWord (word.getLsbD 16) (word.setWidth 3) := by
        rw [h, and_0x10007, ← BitVec.or_assoc, portWord]
        cases word.getLsbD 16 <;> rfl

/-! ### What every row tests and gives -/

/-- Every row tests bits 15:13 for the block's address, or the whole word for 0x4014 (R120). -/
theorem block_of_selects (hr : r ∈ portRows) (hs : r.selects word = true) :
    word &&& 0x0E000 = 0x02000 ∨ word = 0x04014 := by
  have rows : ∀ r ∈ portRows, (r.mask &&& 0x0E000 = 0x0E000 ∧ r.value &&& 0x0E000 = 0x02000) ∨
      (r.mask = BitVec.allOnes 17 ∧ r.value = 0x04014) := by simp [portRows, readRows, writeRows]
  have hw := portRow_selects_iff.mp hs
  rcases rows r hr with ⟨hm, hv⟩ | ⟨hm, hv⟩
  · exact .inl (by rw [← hv, ← hw, BitVec.and_assoc, hm])
  · exact .inr (by rw [← hv, ← hw, hm, BitVec.and_allOnes])

/-- Every row tests bits 16, 15:13 and 2:0. -/
theorem and_portMask_of_selects (hr : r ∈ portRows) (hs : r.selects word = true) :
    word &&& 0x1E007 = r.value &&& 0x1E007 := by
  have rows : ∀ r ∈ portRows, r.mask &&& 0x1E007 = 0x1E007 := by simp [portRows, readRows, writeRows]
  rw [← portRow_selects_iff.mp hs, BitVec.and_assoc, rows r hr]

/-- A row's instruction is encoded by the row's word, and by the data byte when bit 16 makes it a write (R120). -/
theorem accessOf_portRow (hr : r ∈ portRows) (d : Byte) :
    accessOf (r.instr d) = some (r.value, if r.value.getLsbD 16 then none else some d) := by
  revert r
  simp [portRows, readRows, writeRows, accessOf]

/-- What decodes is encoded by a word that differs in the ignored bits 12:3 alone. -/
theorem accessOf_of_decodeAccess (h : decodeAccess word d = .ok i) :
    ∃ word', accessOf i = some (word', if word.getLsbD 16 then none else some d) ∧
      word &&& 0x1E007 = word' &&& 0x1E007 := by
  obtain ⟨r, hr, hs, rfl⟩ := decodeAccess_ok_iff.mp h
  have same := and_portMask_of_selects hr hs
  have bit16 : word.getLsbD 16 = r.value.getLsbD 16 := by simpa using congrArg (BitVec.getLsbD · 16) same
  exact ⟨r.value, bit16 ▸ accessOf_portRow hr d, same⟩

/-! ### An access as bytes -/

theorem getLsbD_wordOfBytes (lo hi top : Byte) (k : Nat) :
    (wordOfBytes lo hi top).getLsbD k =
      if k < 8 then lo.getLsbD k else if k < 16 then hi.getLsbD (k - 8) else decide (k = 16) && top.getLsbD 0 := by
  rw [wordOfBytes, BitVec.setWidth_eq, BitVec.getLsbD_append, BitVec.getLsbD_append, BitVec.getLsbD_setWidth]
  have hhi : k - 8 < 8 ↔ k < 16 := by omega
  have htop : k - 8 - 8 < 1 ↔ k ≤ 16 := by omega
  rcases Nat.lt_trichotomy k 16 with hk | rfl | hk
  · simp [hhi, hk]
  · simp
  · simp [hhi, htop, hk.ne', Nat.not_lt.mpr hk.le, Nat.not_le.mpr hk]

theorem bytesOfWord_wordOfBytes (lo hi : Byte) {top : Byte} (h : top = 1 ∨ top = 0) :
    bytesOfWord (wordOfBytes lo hi top) = [lo, hi, top] := by
  rw [bytesOfWord, List.cons.injEq, List.cons.injEq, List.cons.injEq]
  refine ⟨?lo, ?hi, ?top, rfl⟩ <;> refine BitVec.eq_of_getLsbD_eq fun k hk => ?_
  case lo => simp [getLsbD_wordOfBytes, hk]
  case hi =>
    rw [BitVec.getLsbD_setWidth, BitVec.getLsbD_ushiftRight, getLsbD_wordOfBytes]
    grind
  case top =>
    rw [BitVec.getLsbD_setWidth, BitVec.getLsbD_ushiftRight, getLsbD_wordOfBytes]
    rcases h with rfl | rfl <;> interval_cases k <;> rfl

/-- What decodes begins with the bytes of a word, and with a data byte exactly when bit 16 makes it a write. -/
theorem bytes_of_decode {bytes rest : List Byte} (h : decode bytes = .ok (i, rest)) :
    ∃ (word : AccessWord) (d : Byte), decodeAccess word d = .ok i ∧
      bytes = bytesOfWord word ++ (if word.getLsbD 16 then none else some d).toList ++ rest := by
  unfold decode at h
  split at h
  case h_2 => cases h
  case h_1 lo hi top tail =>
  split at h
  case isTrue ht =>
    split at h <;> cases h
    rename_i hd
    exact ⟨_, 0, hd, by rw [bytesOfWord_wordOfBytes lo hi (by simp [ht]), getLsbD_wordOfBytes, ht]; rfl⟩
  case isFalse =>
  split at h
  case isFalse => cases h
  case isTrue ht =>
  split at h
  case h_1 => cases h
  case h_2 d tail =>
    split at h <;> cases h
    rename_i hd
    exact ⟨_, d, hd, by rw [bytesOfWord_wordOfBytes lo hi (by simp [ht]), getLsbD_wordOfBytes, ht]; rfl⟩

end Sys2Proof.Machine
end

section
/-! Every instruction's encoding, from the lemma of its constructor. -/

namespace Sys2Proof.Laws.EncodesBack

theorem statement (i : Instr) : Statement i :=
  match i with
  | .rdCtrl => rdCtrl
  | .rdMask => rdMask
  | .rdStatus => rdStatus
  | .rdOamAddr => rdOamAddr
  | .rdOamData => rdOamData
  | .rdScroll => rdScroll
  | .rdAddr => rdAddr
  | .rdData => rdData
  | .wrCtrl d => wrCtrl d
  | .wrMask d => wrMask d
  | .wrStatus d => wrStatus d
  | .wrOamAddr d => wrOamAddr d
  | .wrOamData d => wrOamData d
  | .wrScroll d => wrScroll d
  | .wrAddr d => wrAddr d
  | .wrData d => wrData d
  | .wrDma d => wrDma d
  | .set .. => set ..
  | .swapBank .. => swapBank ..
  | .peek .. => peek ..
  | .poke .. => poke ..
  | .installHook .. => installHook ..
  | .removeHook .. => removeHook ..
  | .setMirroring code => setMirroring code
  | .construct .. => construct ..
  | .reset .. => reset ..
  | .update time => update time
  | .beginFrame target => beginFrame target
  | .endFrame => endFrame
  | .ackNmi => ackNmi
  | .snapshot => snapshot
  | .restore chunks => restore chunks
  | .dotVblSet => dotVblSet
  | .dotVblClr => dotVblClr
  | .dotWarmCount => dotWarmCount
  | .dotPixel => dotPixel
  | .dotPixelOff => dotPixelOff
  | .dotShift => dotShift
  | .dotNt => dotNt
  | .dotAt => dotAt
  | .dotPtLo => dotPtLo
  | .dotPtHi => dotPtHi
  | .dotIncX => dotIncX
  | .dotIncY => dotIncY
  | .dotEval => dotEval
  | .dotHCopy => dotHCopy
  | .dotVCopy => dotVCopy
  | .dotOamZero => dotOamZero
  | .dotSprNt2 => dotSprNt2
  | .dotSprNt4 => dotSprNt4
  | .dotSprLo => dotSprLo
  | .dotSprHi => dotSprHi
  | .dotSprExtra => dotSprExtra
  | .dotDummyNt338 => dotDummyNt338
  | .dotDummyNt340 => dotDummyNt340
  | .dotSkip => dotSkip
  | .dotIdle => dotIdle

end Sys2Proof.Laws.EncodesBack
end

section
open Sys2Proof Sys2Proof.Machine

/-- Settles O3: forth by the lemma of each constructor, back by the row that selects the word. -/
theorem decodeAndEncodeAgree : Obligations.DecodeAndEncodeAgree := by
  refine ⟨fun i => ?ports, fun i bytes rest h => ?forth, fun i bytes rest h => ?back⟩
  case ports =>
    obtain ⟨-, hnone, -⟩ := Laws.EncodesBack.statement i
    rw [← Option.ne_none_iff_isSome, ne_eq, hnone, not_not]
  case forth =>
    obtain ⟨hback, -, -⟩ := Laws.EncodesBack.statement i
    exact hback bytes h rest
  case back =>
    obtain ⟨word', d, hd, hbytes⟩ := bytes_of_decode h
    obtain ⟨word, hi, hw⟩ := accessOf_of_decodeAccess hd
    exact ⟨word, word', _, hi, hbytes, hw⟩

/-- Settles O2: a port's row selects by the three fields, and every row tests for the block or for 0x4014. -/
theorem accessWordSelectsItsPort : Obligations.AccessWordSelectsItsPort := by
  refine fun word d => ⟨fun h => ?port, ?dma, fun h hd => ?outside⟩
  case port => exact decodeAccess_of_selects (portRow_mem ..) (portRow_selects_iff.mpr (and_portMask h)) d
  case dma =>
    rintro rfl
    exact decodeAccess_of_selects (r := ⟨0x1FFFF, 0x04014, .wrDma⟩) (by simp [portRows, writeRows]) (by decide) d
  case outside => exact decodeAccess_of_none_selects (fun r hr hs => (block_of_selects hr hs).elim h hd) d

/-- Settles O1, by running the decoder and the schedule on each word and position. -/
theorem wordsWrittenOutDecode : Obligations.WordsWrittenOutDecode := by
  unfold Obligations.WordsWrittenOutDecode
  decide

end

section
/-! The substrate in numbers (powers of two, the page and the byte of an address, the entries a swap writes), and what
each call on it does, one equation per case (R91-R93, R150-R158). -/

namespace Sys2Proof.Machine

/-! ### Powers of two and masks -/

theorem isPow2_iff {n : Nat} : isPow2 n = true ↔ ∃ k, n = 2 ^ k := by
  rw [isPow2, Bool.and_eq_true, decide_eq_true_eq, decide_eq_true_eq]
  exact Nat.ne_zero_and_sub_one_eq_zero_iff_isPowerOfTwo

/-- Masking by a power of two is the remainder (R91, R93). -/
theorem and_pow2_sub_one {n : Nat} (h : isPow2 n = true) (a : Nat) : a &&& (n - 1) = a % n := by
  obtain ⟨k, rfl⟩ := isPow2_iff.mp h
  exact Nat.and_two_pow_sub_one_eq_mod a k

/-- Of two powers of two the smaller divides the larger. -/
theorem isPow2_dvd_of_le {m n : Nat} (hm : isPow2 m = true) (hn : isPow2 n = true) (h : m ≤ n) : m ∣ n := by
  obtain ⟨j, rfl⟩ := isPow2_iff.mp hm
  obtain ⟨k, rfl⟩ := isPow2_iff.mp hn
  exact pow_dvd_pow 2 ((Nat.pow_le_pow_iff_right (by decide)).mp h)

section
variable {c : Substrate} (h : c.wf = true)
include h

theorem Substrate.page_pos : 0 < c.page := by
  obtain ⟨-, hpage, -⟩ := Substrate.wf_iff.mp h
  exact isPow2_pos hpage

theorem Substrate.page_dvd_space : c.page ∣ c.space := by
  obtain ⟨-, -, hmod, -⟩ := Substrate.wf_iff.mp h
  exact Nat.dvd_of_mod_eq_zero hmod

theorem Substrate.and_mask (i a : Nat) : a &&& (c.source i).mask = a % (c.source i).size := by
  obtain ⟨-, hsize, -⟩ := Source.wf_iff.mp (Substrate.source_wf h i)
  exact and_pow2_sub_one hsize a

/-! ### Address resolution in numbers (R93) -/

theorem Substrate.pageOf_eq (a : Nat) : c.pageOf a = a % c.space / c.page := by
  obtain ⟨hspace, -⟩ := Substrate.wf_iff.mp h
  rw [Substrate.pageOf, and_pow2_sub_one hspace]

/-- An address resolves through its page's entry, by its offset in the page and the source's size. -/
theorem Substrate.resolve_of_entry {a : Nat} {e : PageEntry} (he : c.pt[a % c.space / c.page]? = some e) :
    c.resolve a = (a % c.space / c.page, e.src, (e.off + a % c.page) % (c.source e.src).size) := by
  obtain ⟨hspace, hpage, -⟩ := Substrate.wf_iff.mp h
  have entry : c.pt.getD (c.pageOf a) ⟨0, 0⟩ = e := by
    rw [List.getD_eq_getElem?_getD, Substrate.pageOf_eq h, he, Option.getD_some]
  rw [Substrate.resolve, entry, Substrate.pageOf_eq h, Substrate.and_mask h, and_pow2_sub_one hspace,
    and_pow2_sub_one hpage, Nat.mod_mod_of_dvd a (Substrate.page_dvd_space h)]

end

/-! ### `Peek` and `Poke` -/

theorem exec_peek (x : Sub) (a : Nat) (s : State) :
    exec (.peek x a) s = .next (answer (.byte (peekSub x a s).1) (peekSub x a s).2) := rfl

theorem exec_peek_draws (x : Sub) (a : Nat) (s : State) :
    ∃ b n, exec (.peek x a) s = .next { s with reply := .byte b, draws := n } := by
  obtain ⟨n, hn⟩ := peekSub_snd x a s
  exact ⟨(peekSub x a s).1, n, by rw [exec_peek, hn]; rfl⟩

/-- `Peek` of an unhooked page bound to a readable source (R154). -/
theorem exec_peek_of_entry {x : Sub} {a : Nat} {s : State} {c : Substrate} {e : PageEntry} (hc : s.sub x = c)
    (h : c.wf = true) (he : c.pt[a % c.space / c.page]? = some e) (hk : c.hooks[a % c.space / c.page]? = some none)
    (hr : (c.source e.src).readable = true) :
    exec (.peek x a) s = .next { s with
      reply := .byte ((c.source e.src).bytes.read ((e.off + a % c.page) % (c.source e.src).size)) } := by
  subst c
  have resolved := Substrate.resolve_of_entry h he
  have unhooked : (s.sub x).hook ((s.sub x).resolve a).1 = none := by
    rw [resolved, Substrate.hook, List.getD_eq_getElem?_getD, hk, Option.getD_some]
  have readable : ((s.sub x).source ((s.sub x).resolve a).2.1).readable = true := by rw [resolved]; exact hr
  rw [exec_peek, peekSub_of_readable unhooked readable, Substrate.byteAt, resolved]
  rfl

theorem exec_poke (x : Sub) (a : Nat) (d : Byte) (s : State) :
    exec (.poke x a d) s = .next { s.setSub x ((s.sub x).pokeByte a d) with reply := .nothing } := rfl

/-- A `Poke` keeps the number of sources and, of each, all but its bytes (R155). -/
theorem Substrate.pokeByte_sources (c : Substrate) (a : Nat) (d : Byte) :
    (c.pokeByte a d).srcs.length = c.srcs.length ∧
      ∀ i, (c.pokeByte a d).source i = { c.source i with bytes := ((c.pokeByte a d).source i).bytes } := by
  rcases Substrate.pokeByte_cases c a d with ⟨-, he⟩ | ⟨hw, he⟩ <;> rw [he]
  · exact ⟨rfl, fun _ => rfl⟩
  · refine ⟨List.length_set .., fun i => ?_⟩
    rw [Substrate.source_setBytes (Substrate.source_of_writable hw)]
    split <;> rfl

/-- Every byte of every source after a `Poke` (R155). -/
theorem Substrate.read_pokeByte {c : Substrate} (h : c.wf = true) (a : Nat) (d : Byte) (i k : Nat) :
    ((c.pokeByte a d).source i).bytes.read k =
      if (i, k) = (c.resolve a).2 ∧ (c.source i).writable = true then d else (c.source i).bytes.read k := by
  rcases Substrate.pokeByte_cases c a d with ⟨hw, he⟩ | ⟨hw, he⟩ <;> rw [he]
  · have dropped : ¬((i, k) = (c.resolve a).2 ∧ (c.source i).writable = true) := by
      rintro ⟨hik, hi⟩
      rw [← hik, hi] at hw
      cases hw
    rw [if_neg dropped]
  · rw [Substrate.source_setBytes (Substrate.source_of_writable hw)]
    by_cases hi : (c.resolve a).2.1 = i
    · subst i
      rw [if_pos rfl, Store.read_write (Substrate.source_bytes_wf h _)]
      by_cases hk : (c.resolve a).2.2 = k
      · rw [if_pos hk, if_pos ⟨Prod.ext rfl hk.symm, hw⟩]
      · rw [if_neg hk, if_neg fun hc => hk (congrArg Prod.snd hc.1).symm]
    · rw [if_neg hi, if_neg fun hc => hi (congrArg Prod.fst hc.1).symm]

/-! ### `Set` -/

theorem Substrate.source_setSource {c : Substrate} {i : Nat} (hi : i < c.nsrc) (readable writable : Bool) (size : Nat)
    (bytes : Store 8) (j : Nat) :
    (c.setSource i readable writable size bytes).source j =
      if i = j then { bytes, size, readable, writable, rederivable := !writable } else c.source j := by
  have hi : i < c.srcs.length := hi
  simp only [Substrate.setSource, Substrate.source, List.getD_eq_getElem?_getD, List.getElem?_set, if_pos hi]
  split <;> rfl

theorem exec_set_of_ok {x : Sub} {src size : Nat} {s : State} (hsrc : src < (s.sub x).nsrc) (hsize : isPow2 size = true)
    (flags : Option (Bool × Bool)) (contents : Option (List Byte)) :
    ∃ (n : Nat) (readable writable : Bool),
      (readable, writable) = flags.getD (((s.sub x).source src).readable, ((s.sub x).source src).writable) ∧
      exec (.set x src flags size contents) s = .next { s.setSub x
        ((s.sub x).setSource src readable writable size (sourceContents s.draws contents)) with
          reply := .nothing, draws := n } :=
  ⟨_, _, _, rfl, if_pos (by simp [hsrc, hsize])⟩

theorem exec_set_of_not_ok {x : Sub} {src size : Nat} {s : State} (h : ¬(src < (s.sub x).nsrc ∧ isPow2 size = true))
    (flags : Option (Bool × Bool)) (contents : Option (List Byte)) :
    exec (.set x src flags size contents) s = .next (refuse .badSource s) :=
  if_neg (by simpa using h)

/-! ### `SwapBank` -/

theorem Substrate.swapOk_iff {c : Substrate} {run start src : Nat} {banks : List Nat} :
    c.swapOk run start src banks = true ↔
      (∃ k, run = 2 ^ k) ∧ c.page ≤ run ∧ start % c.page = 0 ∧ start + banks.length * run ≤ c.space ∧
        src < c.nsrc ∧ 1 ≤ banks.length := by
  simp only [Substrate.swapOk, Bool.and_eq_true, decide_eq_true_eq, isPow2_iff, and_assoc]

theorem swapBank_of_ok {x : Sub} {run start src : Nat} {banks : List Nat} {s : State}
    (h : (s.sub x).swapOk run start src banks = true) :
    swapBank x run start src banks s = .ok (s.setSub x ((s.sub x).swap run start src banks)) :=
  if_pos h

theorem exec_swapBank_of_ok {x : Sub} {run start src : Nat} {banks : List Nat} {s : State}
    (h : (s.sub x).swapOk run start src banks = true) :
    exec (.swapBank x run start src banks) s =
      .next { s.setSub x ((s.sub x).swap run start src banks) with reply := .nothing } := by
  change execSwapBank x run start src banks s = _
  rw [execSwapBank, swapBank_of_ok h]
  rfl

theorem exec_swapBank_of_not_ok {x : Sub} {run start src : Nat} {banks : List Nat} {s : State}
    (h : ¬(s.sub x).swapOk run start src banks = true) :
    exec (.swapBank x run start src banks) s = .next (refuse .badSwap s) := by
  change execSwapBank x run start src banks s = _
  rw [execSwapBank, swapBank, if_neg h]

theorem swapEntries_cons (c : Substrate) (run src b : Nat) (banks : List Nat) :
    swapEntries c run src (b :: banks) =
      (List.range (run / c.page)).map (fun j => ⟨src, (b * run + j * c.page) &&& (c.source src).mask⟩) ++
        swapEntries c run src banks :=
  List.flatMap_cons

/-- Entry `j` of bank `i` is entry `i * (run / page) + j` of the swap (R152). -/
theorem getElem?_swapEntries (c : Substrate) (run src : Nat) {banks : List Nat} {i j : Nat} (hi : i < banks.length)
    (hj : j < run / c.page) :
    (swapEntries c run src banks)[i * (run / c.page) + j]? =
      some ⟨src, (banks[i] * run + j * c.page) &&& (c.source src).mask⟩ := by
  induction banks generalizing i with
  | nil => cases hi
  | cons b banks ih =>
    rw [swapEntries_cons]
    cases i with
    | zero =>
      rw [Nat.zero_mul, Nat.zero_add, List.getElem?_append_left (by simpa using hj)]
      simp [hj]
    | succ i =>
      have past : (i + 1) * (run / c.page) + j = run / c.page + (i * (run / c.page) + j) := by
        rw [Nat.succ_mul]; omega
      rw [past, List.getElem?_append_right (by simp)]
      simpa using ih (Nat.lt_of_succ_lt_succ hi)

section
variable {c : Substrate} {run start src : Nat} {banks : List Nat} (h : c.wf = true)
  (hok : c.swapOk run start src banks = true)
include h hok

theorem Substrate.page_dvd_run : c.page ∣ run := by
  obtain ⟨-, hpage, -⟩ := Substrate.wf_iff.mp h
  obtain ⟨hrun, hle, -⟩ := Substrate.swapOk_iff.mp hok
  exact isPow2_dvd_of_le hpage (isPow2_iff.mpr hrun) hle

/-- The pages of a swap are pages of the substrate. -/
theorem Substrate.swap_pages_le : start / c.page + banks.length * (run / c.page) ≤ c.pt.length := by
  obtain ⟨-, -, -, hlen, -⟩ := Substrate.wf_iff.mp h
  obtain ⟨-, -, -, hfit, -⟩ := Substrate.swapOk_iff.mp hok
  calc start / c.page + banks.length * (run / c.page)
      = (start + banks.length * run) / c.page := by
        rw [Nat.add_div_of_dvd_left ((Substrate.page_dvd_run h hok).mul_left _),
          Nat.mul_div_assoc _ (Substrate.page_dvd_run h hok)]
    _ ≤ c.pt.length := hlen ▸ Nat.div_le_div_right hfit

/-- A swap binds page `j` of run `i` to its bank's offset (R152). -/
theorem Substrate.swap_entry {i j : Nat} (hi : i < banks.length) (hj : j < run / c.page) :
    (c.swap run start src banks).pt[start / c.page + i * (run / c.page) + j]? =
      some ⟨src, (banks[i] * run + j * c.page) % (c.source src).size⟩ := by
  have inside : i * (run / c.page) + j < banks.length * (run / c.page) :=
    calc i * (run / c.page) + j
        < (i + 1) * (run / c.page) := by rw [Nat.succ_mul]; omega
      _ ≤ banks.length * (run / c.page) := Nat.mul_le_mul_right _ hi
  rw [Substrate.swap, getElem?_setPages _ _ _ _ (by simpa using Substrate.swap_pages_le h hok),
    if_pos (by rw [length_swapEntries]; omega), Nat.add_assoc, Nat.add_sub_cancel_left,
    getElem?_swapEntries c run src hi hj, Substrate.and_mask h]

/-- A swap leaves the pages outside its runs (R152). -/
theorem Substrate.swap_outside {q : Nat}
    (hq : q < start / c.page ∨ start / c.page + banks.length * (run / c.page) ≤ q) :
    (c.swap run start src banks).pt[q]? = c.pt[q]? := by
  rw [Substrate.swap, getElem?_setPages _ _ _ _ (by simpa using Substrate.swap_pages_le h hok),
    if_neg (by rw [length_swapEntries]; omega)]

/-- The address at offset `o` of run `i` does not wrap, and is at offset `o` of the run's pages. -/
theorem Substrate.swap_address {i o : Nat} (hi : i < banks.length) (ho : o < run) :
    (start + i * run + o) % c.space = start + i * run + o ∧
      (start + i * run + o) / c.page = start / c.page + i * (run / c.page) + o / c.page ∧
      (start + i * run + o) % c.page = o % c.page := by
  obtain ⟨-, -, hstart, hfit, -⟩ := Substrate.swapOk_iff.mp hok
  have hrun : c.page ∣ i * run := (Substrate.page_dvd_run h hok).mul_left i
  have hbase : c.page ∣ start + i * run := (Nat.dvd_of_mod_eq_zero hstart).add hrun
  refine ⟨Nat.mod_eq_of_lt ?below, ?page, ?offset⟩
  case below =>
    calc start + i * run + o
        < start + (i + 1) * run := by rw [Nat.succ_mul]; omega
      _ ≤ start + banks.length * run := Nat.add_le_add_left (Nat.mul_le_mul_right run hi) start
      _ ≤ c.space := hfit
  case page =>
    rw [Nat.add_div_of_dvd_right hbase, Nat.add_div_of_dvd_left hrun,
      Nat.mul_div_assoc _ (Substrate.page_dvd_run h hok)]
  case offset => rw [Nat.add_mod, Nat.mod_eq_zero_of_dvd hbase, Nat.zero_add, Nat.mod_mod]

end

/-! ### Hooks -/

theorem setHook_of_lt {x : Sub} {p : Nat} {s : State} (hp : p < (s.sub x).npages) (k : Option Nat) :
    setHook x p k s = { s.setSub x { s.sub x with hooks := (s.sub x).hooks.set p k } with reply := .nothing } :=
  if_pos hp

theorem setHook_of_le {x : Sub} {p : Nat} {s : State} (hp : (s.sub x).npages ≤ p) (k : Option Nat) :
    setHook x p k s = refuse .badPage s :=
  if_neg (Nat.not_lt.mpr hp)

/-! ### `SetMirroring` -/

/-- A run of entries as long as the table replaces it. -/
theorem setPages_of_length_eq {pt es : List PageEntry} (h : es.length = pt.length) : setPages pt 0 es = es := by
  refine List.ext_getElem? fun q => ?_
  rw [getElem?_setPages pt 0 es q (by omega)]
  split
  · rw [Nat.sub_zero]
  · rw [List.getElem?_eq_none (by omega), List.getElem?_eq_none (by omega)]

/-- Runs of one page: one entry for each bank. -/
theorem swapEntries_of_run_eq_page {c : Substrate} (h : c.wf = true) (src : Nat) (banks : List Nat) :
    swapEntries c c.page src banks = banks.map fun b => ⟨src, b * c.page % (c.source src).size⟩ := by
  induction banks with
  | nil => rfl
  | cons b banks ih =>
    rw [swapEntries_cons, ih, Nat.div_self (Substrate.page_pos h), List.map_cons]
    simp [Substrate.and_mask h]

/-- On the block's geometry four banks of 1 KB are a swap of the whole page table (R13, R158). -/
theorem Substrate.swap_nametables {c : Substrate} (h : c.wf = true) (hspace : c.space = 4096) (hpage : c.page = 1024)
    {banks : List Nat} (hlen : banks.length = 4) :
    c.swapOk 1024 0 0 banks = true ∧
      c.swap 1024 0 0 banks = { c with pt := banks.map fun b => ⟨0, b * 1024 % (c.source 0).size⟩ } := by
  obtain ⟨-, -, -, hpt, -, hsrc, -⟩ := Substrate.wf_iff.mp h
  have tables : c.pt.length = 4 := by rw [hpt, Substrate.npages, hspace, hpage]
  have source : 0 < c.nsrc := Nat.zero_lt_of_lt (hsrc _ (List.getElem_mem (n := 0) (by omega)))
  have entries := swapEntries_of_run_eq_page h 0 banks
  rw [hpage] at entries
  refine ⟨Substrate.swapOk_iff.mpr ⟨⟨10, rfl⟩, hpage.le, Nat.zero_mod _, by omega, source, by omega⟩, ?_⟩
  rw [Substrate.swap, entries, Nat.zero_div, setPages_of_length_eq (by rw [List.length_map, hlen, tables])]

/-- On the block's geometry a fixed mode binds the four name tables to its banks (R13, R158). -/
theorem exec_setMirroring_fixed {s : State} (h : s.nmt.wf = true) (hspace : s.nmt.space = 4096)
    (hpage : s.nmt.page = 1024) {code : Nat} {m : Mirror} (hm : Mirror.ofCode code = some m) {banks : List Nat}
    (hb : m.banks = some banks) (hlen : banks.length = 4) :
    exec (.setMirroring code) s = .next { s with
      nmt := { s.nmt with pt := banks.map fun b => ⟨0, b * 1024 % (s.nmt.source 0).size⟩ }
      mirror := m, reply := .nothing } := by
  obtain ⟨ok, swapped⟩ := Substrate.swap_nametables h hspace hpage hlen
  have mirrored : setMirror m s = .ok { s with nmt := s.nmt.swap 1024 0 0 banks, mirror := m } := by
    rw [setMirror, hb]
    dsimp only
    rw [swapBank_of_ok (x := .nmt) ok]
    rfl
  change execSetMirroring code s = _
  rw [execSetMirroring, hm]
  dsimp only
  rw [mirrored, swapped]
  rfl

theorem Mirror.ofCode_of_gt {code : Nat} (h : 4 < code) : Mirror.ofCode code = none := by
  obtain ⟨k, rfl⟩ := Nat.exists_eq_add_of_lt h
  rw [show 4 + k + 1 = k + 5 by omega]
  rfl

theorem exec_setMirroring_unknown {code : Nat} (h : Mirror.ofCode code = none) (s : State) :
    exec (.setMirroring code) s = .next (refuse .badMirroring s) := by
  change execSetMirroring code s = _
  rw [execSetMirroring, h]

end Sys2Proof.Machine
end

section
open Sys2Proof Sys2Proof.Machine

/-- Settles O25, by the address's resolution in numbers; whatever is read, only the draw counter moves. -/
theorem peekReadsTheBoundByte : Obligations.PeekReadsTheBoundByte :=
  fun x a s _ h he => ⟨fun hk hr => exec_peek_of_entry rfl h he hk hr, exec_peek_draws x a s⟩

/-- Settles O26: a write changes the bytes of at most one source, and of those the one the address resolves to. -/
theorem pokeStoresOneByte : Obligations.PokeStoresOneByte := by
  intro x a d s h
  obtain ⟨length, frame⟩ := Substrate.pokeByte_sources (s.sub x) a d
  exact ⟨_, exec_poke x a d s, Substrate.pokeByte_pages .., length, frame, Substrate.read_pokeByte h a d⟩

/-- Settles O27: within its preconditions `Set` replaces one entry of the list of sources, and contents given read
back. -/
theorem setBindsASource : Obligations.SetBindsASource := by
  intro x src flags size contents s
  simp only [← isPow2_iff]
  refine ⟨fun ⟨hsrc, hsize⟩ => ?set, fun hno => exec_set_of_not_ok hno flags contents⟩
  obtain ⟨n, readable, writable, hflags, he⟩ := exec_set_of_ok hsrc hsize flags contents
  have source := Substrate.source_setSource hsrc readable writable size (sourceContents s.draws contents)
  refine ⟨_, n, he, rfl, List.length_set .., fun j hj => ?others, ?size, ?flags, ?contents⟩
  case others => rw [source, if_neg hj.symm]
  all_goals rw [source, if_pos rfl]
  case flags => exact hflags
  case contents =>
    rintro bytes rfl k hk
    exact (Store.read_ofBytes bytes k).trans (by rw [List.getElem?_eq_getElem hk, Option.getD_some])

/-- Settles O28: the entries of a swap run by run, and the preconditions as the model tests them. -/
theorem swapBankRebindsItsRuns : Obligations.SwapBankRebindsItsRuns := by
  intro x run start src banks s h
  simp only [← Substrate.swapOk_iff]
  refine ⟨fun hok => ?swap, exec_swapBank_of_not_ok⟩
  exact ⟨_, exec_swapBank_of_ok hok, length_setPages .., fun i j hi hj => Substrate.swap_entry h hok hi hj,
    fun q => Substrate.swap_outside h hok⟩

/-- Settles O29: the swap's entry for the address's page and the offset within the page add up to the masked offset. -/
theorem swapThenPeekIndexesTheSource : Obligations.SwapThenPeekIndexesTheSource := by
  intro x run start src banks s i o hi h hok ho hr hk
  refine ⟨_, exec_swapBank_of_ok hok, ?_⟩
  obtain ⟨hwrap, hpage, hoff⟩ := Substrate.swap_address h hok hi ho
  have hj : o / (s.sub x).page < run / (s.sub x).page :=
    Nat.div_lt_div_of_lt_of_dvd (Substrate.page_dvd_run h hok) ho
  have entry := Substrate.swap_entry h hok hi hj
  rw [← hpage, ← hwrap] at entry
  rw [← hwrap] at hk
  have swapped : ({ s.setSub x ((s.sub x).swap run start src banks) with reply := .nothing } : State).sub x =
      (s.sub x).swap run start src banks := sub_setSub_same ..
  have offset : ((banks[i] * run + o / (s.sub x).page * (s.sub x).page) % ((s.sub x).source src).size +
      (start + i * run + o) % (s.sub x).page) % ((s.sub x).source src).size =
        (banks[i] * run + o) % ((s.sub x).source src).size := by
    rw [hoff, Nat.mod_add_mod, Nat.add_assoc, Nat.div_add_mod']
  rw [← offset]
  exact exec_peek_of_entry swapped (Substrate.swap_wf h hok) entry hk hr

/-- Settles O30: the list of hooks is set at the page. -/
theorem hooksAreSetPerPage : Obligations.HooksAreSetPerPage := by
  intro x p h s hwf
  obtain ⟨-, -, -, -, hlen, -⟩ := Substrate.wf_iff.mp hwf
  refine ⟨fun hp => ?set, fun hp => ?refused⟩
  case set =>
    have pages (k : Option Nat) (q : Nat) :
        ((s.sub x).hooks.set p k)[q]? = if q = p then some k else (s.sub x).hooks[q]? := by
      rw [List.getElem?_set, if_pos (hp.trans_eq hlen.symm)]
      simp only [eq_comm]
    exact ⟨⟨_, congrArg _ (setHook_of_lt hp (some h)), pages (some h)⟩,
      ⟨_, congrArg _ (setHook_of_lt hp none), pages none⟩⟩
  case refused => exact ⟨congrArg _ (setHook_of_le hp (some h)), congrArg _ (setHook_of_le hp none)⟩

/-- Settles O31: each fixed mode by its row of banks, and a code above 4 names no mode. -/
theorem mirroringBindsTheNameTables : Obligations.MirroringBindsTheNameTables := by
  intro s h hspace hpage
  have fixed {code : Nat} {m : Mirror} := exec_setMirroring_fixed (code := code) (m := m) h hspace hpage
  exact ⟨fixed rfl rfl rfl, fixed rfl rfl rfl, fixed rfl rfl rfl, fixed rfl rfl rfl, rfl,
    fun code hc => exec_setMirroring_unknown (Mirror.ofCode_of_gt hc) s⟩

end

section
/-! The dot schedule as a program: the rows of the opcode map performed one after another are the body of a dot and,
at (PRE, 339), the skip test (R132, R171, R176). -/

namespace Sys2Proof.Machine

/-! ### Performing a list of micro-operations -/

/-- The state `exec` gives a micro-operation; `exec_dot` says that there is one. -/
def performed (i : Instr) (s : State) : State :=
  match exec i s with
  | .next t => t
  | _ => s

theorem exec_eq_performed {i : Instr} (hi : i.format = .dot) (s : State) : exec i s = .next (performed i s) := by
  obtain ⟨t, ht, -⟩ := exec_dot hi s
  rw [performed, ht]

theorem performAll_eq_foldl {l : List Instr} (hl : ∀ i ∈ l, i.format = .dot) (s : State) :
    performAll l s = .next (l.foldl (fun s i => performed i s) s) := by
  induction l generalizing s with
  | nil => rfl
  | cons i l ih =>
    obtain ⟨hi, hl⟩ := List.forall_mem_cons.mp hl
    rw [performAll, exec_eq_performed hi]
    exact ih hl (performed i s)

/-- The rows that a position selects, performed in the table's order. -/
def runRows (rows : List DotRow) (cfg : Setup) (line dot : BitVec 9) (on : Bool) (s : State) : State :=
  rows.foldl (fun s r => gate (r.selects cfg line dot on) (performed r.instr) s) s

/-- What the opcode map does to a state at its own position. -/
def runSchedule (s : State) : State := runRows dotRows s.cfg s.line s.dot s.renderOn s

section
variable {rows rows' : List DotRow} {cfg : Setup} {line dot : BitVec 9} {on : Bool} {s : State}

theorem runRows_append :
    runRows (rows ++ rows') cfg line dot on s = runRows rows' cfg line dot on (runRows rows cfg line dot on s) :=
  List.foldl_append

theorem runRows_eq_foldl_filter :
    runRows rows cfg line dot on s =
      ((rows.filter fun r => r.selects cfg line dot on).map DotRow.instr).foldl (fun s i => performed i s) s := by
  rw [List.foldl_map, List.foldl_filter]
  rfl

theorem format_of_mem_dotRows : ∀ r ∈ dotRows, r.instr.format = .dot := by decide

/-- An idle dot's one micro-operation changes nothing, so that the schedule is its rows (R176). -/
theorem performAll_schedule :
    performAll (schedule cfg line dot on) s = .next (runRows dotRows cfg line dot on s) := by
  have dots : ∀ i ∈ (dotRows.filter fun r => r.selects cfg line dot on).map DotRow.instr, i.format = .dot := by
    intro i hi
    obtain ⟨r, hr, rfl⟩ := List.mem_map.mp hi
    exact format_of_mem_dotRows r (List.mem_filter.mp hr).1
  rw [runRows_eq_foldl_filter, ← performAll_eq_foldl dots]
  unfold schedule
  split
  case h_1 h => rw [h]; rfl
  case h_2 h => rw [h]

/-- What every row's micro-operation keeps, the rows keep. -/
theorem runRows_keeps {P : State → Prop} (h : ∀ r ∈ rows, ∀ s, P s → P (performed r.instr s)) (hs : P s) :
    P (runRows rows cfg line dot on s) := by
  induction rows generalizing s with
  | nil => exact hs
  | cons r rows ih =>
    obtain ⟨hr, hrows⟩ := List.forall_mem_cons.mp h
    exact ih hrows (gate_keeps hr hs)

end

theorem MicroEffect.cfg {s t : State} (h : MicroEffect s t) : t.cfg = s.cfg := by
  cases h with
  | quiet h => rw [h]
  | warmCount => rfl
  | pixel => exact (emitPixel_frame ..).cfg
  | eval => rfl
  | slots h _ => rw [h]
  | skip => rw [microSkip_frame s]

/-- No row moves the parameters. -/
theorem runRows_cfg {rows : List DotRow} (h : ∀ r ∈ rows, r.instr.format = .dot) (cfg : Setup) (line dot : BitVec 9)
    (on : Bool) (s : State) : (runRows rows cfg line dot on s).cfg = s.cfg := by
  refine runRows_keeps (P := fun t => t.cfg = s.cfg) (fun r hr t ht => ?_) rfl
  obtain ⟨u, hu, he⟩ := exec_dot (h r hr) t
  cases hu.symm.trans (exec_eq_performed (h r hr) t)
  exact he.cfg.trans ht

/-! ### When a row is selected -/

theorem decide_and_seven (dot v : BitVec 9) : decide (dot &&& 7 = v) = decide (dot.toNat % 8 = v.toNat) := by
  have low : (dot &&& 7).toNat = dot.toNat % 8 := Nat.and_two_pow_sub_one_eq_mod dot.toNat 3
  rw [← low]
  exact decide_eq_decide.mpr BitVec.toNat_inj.symm

section
variable (i : Instr) (c : LineClass) (render : RenderCond) (cfg : Setup) (line dot : BitVec 9) (on : Bool)

theorem contains_anyLimit (limit : SpriteLimit) : anyLimit.contains limit = true := by cases limit <;> rfl

/-- A row for one dot. -/
theorem selects_at_dot {v : BitVec 9} {n : Nat} (hv : v.toNat = n) (limits : List SpriteLimit) :
    DotRow.selects ⟨i, 0x1FF, v, c, [(n, n)], render, limits⟩ cfg line dot on =
      (c.holds cfg.std line.toNat && decide (dot.toNat = n) && render.holds on && limits.contains cfg.limit) := by
  have all : dot &&& 0x1FF = dot := BitVec.and_allOnes
  have value : decide (dot = v) = decide (dot.toNat = n) := hv ▸ decide_eq_decide.mpr BitVec.toNat_inj.symm
  rw [DotRow.selects, DotRow.matchesDot, all, value]
  by_cases h : dot.toNat = n
  · simp [h]
  · simp [h]

/-- A row for one of eight dots in its ranges. -/
theorem selects_of_mask_seven (v : BitVec 9) (ranges : List (Nat × Nat)) :
    DotRow.selects ⟨i, 0x007, v, c, ranges, render, anyLimit⟩ cfg line dot on =
      (decide (dot.toNat % 8 = v.toNat) && c.holds cfg.std line.toNat &&
        ranges.any (fun p => inDots p.1 p.2 dot.toNat) && render.holds on) := by
  rw [DotRow.selects, DotRow.matchesDot, decide_and_seven, contains_anyLimit, Bool.and_true]
  rfl

/-- A row for every dot in its ranges. -/
theorem selects_of_mask_zero (ranges : List (Nat × Nat)) :
    DotRow.selects ⟨i, 0x000, 0x000, c, ranges, render, anyLimit⟩ cfg line dot on =
      (c.holds cfg.std line.toNat && ranges.any (fun p => inDots p.1 p.2 dot.toNat) && render.holds on) := by
  rw [DotRow.selects, contains_anyLimit, Bool.and_true]
  simp [DotRow.matchesDot, inDots]

end

/-! ### The groups of the table -/

theorem gate_false (f : State → State) (s : State) : gate false f s = s := rfl

theorem gate_true (f : State → State) (s : State) : gate true f s = f s := rfl

/-- The background fetches of a dot, one gate for each row of the table that tests `dot mod 8` (R176 step 3.3). -/
theorem bgFetchStep_eq_gates (dot : Nat) (s : State) :
    bgFetchStep dot s = gate (decide (dot = 256)) microIncY (gate (decide (dot % 8 = 0)) microIncX
      (gate (decide (dot % 8 = 0)) microPtHi (gate (decide (dot % 8 = 6)) microPtLo
      (gate (decide (dot % 8 = 4)) microAt (gate (decide (dot % 8 = 2)) microNt s))))) := by
  have last (h : dot % 8 ≠ 0) : decide (dot = 256) = false := decide_eq_false (by omega)
  unfold bgFetchStep
  split <;> rename_i h
  case h_4 => simp [h, gate]
  all_goals simp_all [gate]

/-- The sprite fetches of a dot, one gate for each row of the table that tests `dot mod 8` (R176 step 3.6). -/
theorem sprFetchStep_eq_gates (dot : Nat) {s : State} {limit : SpriteLimit} (hs : s.cfg.limit = limit) :
    sprFetchStep dot s = gate (decide (dot = 320) && decide (limit = .unlimited)) microSprExtra
      (gate (decide (dot % 8 = 0)) microSprHi (gate (decide (dot % 8 = 6)) microSprLo
      (gate (decide (dot % 8 = 4)) microSprNt4 (gate (decide (dot % 8 = 2)) microSprNt2 s)))) := by
  have last (h : dot % 8 ≠ 0) : decide (dot = 320) = false := decide_eq_false (by omega)
  unfold sprFetchStep
  rw [hs]
  split <;> rename_i h
  case h_4 => simp [h, gate]
  all_goals simp_all [gate]

section
variable (cfg : Setup) (line dot : BitVec 9) (on : Bool) (s : State)

theorem runRows_eventRows : runRows eventRows cfg line dot on s =
    let vblSet := decide (line.toNat = cfg.std.vblFirst) && decide (dot.toNat = 1)
    let vblClr := decide (line.toNat = cfg.std.pre) && decide (dot.toNat = 1)
    let shown := cfg.std.visibleLine line.toNat && inDots 1 256 dot.toNat
    gate (shown && !on) microPixelOff (gate (shown && on) microPixel
      (gate vblClr microWarmCount (gate vblClr microVblClr (gate vblSet microVblSet s)))) := by
  simp only [runRows, eventRows, List.foldl_cons, List.foldl_nil, selects_at_dot, selects_of_mask_zero,
    contains_anyLimit, BitVec.reduceToNat, List.any_cons, List.any_nil, Bool.or_false, Bool.and_true,
    LineClass.holds, RenderCond.holds]
  rfl

theorem runRows_backgroundRows : runRows backgroundRows cfg line dot on s =
    let bg := cfg.std.renderLine line.toNat && (inDots 1 256 dot.toNat || inDots 321 336 dot.toNat) && on
    gate bg (bgFetchStep dot.toNat) (gate bg microShift s) := by
  have last : (cfg.std.renderLine line.toNat && decide (dot.toNat = 256) && on) =
      (decide (dot.toNat = 256) && cfg.std.renderLine line.toNat &&
        (inDots 1 256 dot.toNat || inDots 321 336 dot.toNat) && on) := by
    by_cases h : dot.toNat = 256
    · simp [h, inDots]
    · simp [h]
  simp only [runRows, backgroundRows, List.foldl_cons, List.foldl_nil, selects_at_dot, selects_of_mask_seven,
    selects_of_mask_zero, contains_anyLimit, BitVec.reduceToNat, List.any_cons, List.any_nil, Bool.or_false,
    Bool.and_true, LineClass.holds, RenderCond.holds, bgDots, last]
  simp only [Bool.and_assoc]
  cases cfg.std.renderLine line.toNat && ((inDots 1 256 dot.toNat || inDots 321 336 dot.toNat) && on)
  · simp only [Bool.and_false, gate_false]
  · simp only [Bool.and_true, gate_true, bgFetchStep_eq_gates]
    rfl

theorem runRows_spriteRows (hs : s.cfg = cfg) : runRows spriteRows cfg line dot on s =
    let spr := cfg.std.renderLine line.toNat && inDots 257 320 dot.toNat && on
    gate spr (sprFetchStep dot.toNat) (gate spr microOamZero
      (gate (decide (line.toNat = cfg.std.pre) && inDots 280 304 dot.toNat && on) microVCopy
      (gate (cfg.std.renderLine line.toNat && decide (dot.toNat = 257) && on) microHCopy
      (gate (cfg.std.visibleLine line.toNat && decide (dot.toNat = evalDot) && on) microEval s)))) := by
  have last : (cfg.std.renderLine line.toNat && decide (dot.toNat = 320) && on &&
        List.contains [SpriteLimit.unlimited] cfg.limit) =
      (decide (dot.toNat = 320) && decide (cfg.limit = .unlimited) && cfg.std.renderLine line.toNat &&
        inDots 257 320 dot.toNat && on) := by
    by_cases h : dot.toNat = 320
    · cases cfg.limit <;> simp [h, inDots]
    · simp [h]
  have kept (c₁ c₂ c₃ : Bool) :
      (microOamZero (gate c₁ microVCopy (gate c₂ microHCopy (gate c₃ microEval s)))).cfg = cfg :=
    (((gate_frame microEval_frame s).trans (gate_frame microHCopy_frame _)).trans
      (gate_frame microVCopy_frame _)).cfg.trans hs
  simp only [runRows, spriteRows, List.foldl_cons, List.foldl_nil, selects_at_dot, selects_of_mask_seven,
    selects_of_mask_zero, contains_anyLimit, BitVec.reduceToNat, List.any_cons, List.any_nil, Bool.or_false,
    Bool.and_true, LineClass.holds, RenderCond.holds, sprDots, evalDot, last]
  simp only [Bool.and_assoc]
  cases cfg.std.renderLine line.toNat && (inDots 257 320 dot.toNat && on)
  · simp only [Bool.and_false, gate_false]
    rfl
  · simp only [Bool.and_true, gate_true]
    rw [sprFetchStep_eq_gates _ (congrArg Setup.limit (kept ..))]
    rfl

theorem runRows_lineEndRows : runRows lineEndRows cfg line dot on s =
    let r := cfg.std.renderLine line.toNat
    gate (decide (line.toNat = cfg.std.pre) && decide (dot.toNat = 339)) microSkip
      (gate (r && decide (dot.toNat = 340) && on) microDummyNt340
      (gate (r && decide (dot.toNat = 338) && on) microDummyNt338 s)) := by
  simp only [runRows, lineEndRows, List.foldl_cons, List.foldl_nil, selects_at_dot, BitVec.reduceToNat,
    contains_anyLimit, Bool.and_true, LineClass.holds, RenderCond.holds]
  rfl

end

theorem renderLine_of_visibleLine {std : Std} {line : Nat} (h : std.visibleLine line = true) :
    std.renderLine line = true := by
  have hv : decide (line < std.visible) = true := h
  rw [Std.renderLine, hv, Bool.true_or]

theorem renderLine_pre (std : Std) : std.renderLine std.pre = true := by simp [Std.renderLine]

/-! ### The whole table -/

/-- The rows are the body of the dot and the skip test: visible lines and the pre-render line are rendering lines, so
that each row's class and condition are those of its step in R176. -/
theorem runSchedule_eq (s : State) : runSchedule s = gate (s.at s.cfg.std.pre 339) microSkip (dotBody s) := by
  have visible : s.cfg.std.visibleLine s.line.toNat = true → s.cfg.std.renderLine s.line.toNat = true :=
    renderLine_of_visibleLine
  have pre : decide (s.line.toNat = s.cfg.std.pre) = true → s.cfg.std.renderLine s.line.toNat = true := fun h =>
    of_decide_eq_true h ▸ renderLine_pre s.cfg.std
  have kept : (runRows backgroundRows s.cfg s.line s.dot s.renderOn
      (runRows eventRows s.cfg s.line s.dot s.renderOn s)).cfg = s.cfg :=
    (runRows_cfg (by decide) ..).trans (runRows_cfg (by decide) ..)
  rw [runSchedule, dotRows, runRows_append, runRows_append, runRows_append, runRows_lineEndRows,
    runRows_spriteRows _ _ _ _ _ kept, runRows_backgroundRows, runRows_eventRows]
  unfold dotBody renderOps
  dsimp only
  simp only [State.at, State.onVisibleLine, State.renderActive]
  generalize s.cfg.std.visibleLine s.line.toNat = v at *
  generalize s.cfg.std.renderLine s.line.toNat = r at *
  generalize decide (s.line.toNat = s.cfg.std.pre) = p at *
  generalize s.renderOn = on
  cases on
  case false => simp [gate_false, Bool.and_comm]
  case true =>
    cases r
    case false =>
      obtain rfl : v = false := by simpa using visible
      obtain rfl : p = false := by simpa using pre
      simp [gate_false, Bool.and_comm]
    case true => simp [gate_false, gate_true, Bool.and_comm]

/-- A dot by its schedule (R171). -/
theorem dotStep_eq (s : State) :
    dotStep s = nmiEdge s (tick (if s.at s.cfg.std.pre 339 then runSchedule s else advance (runSchedule s))) := by
  have position : (dotBody s).at (dotBody s).cfg.std.pre 339 = s.at s.cfg.std.pre 339 := by
    rw [(dotBody_frame s).at, (dotBody_frame s).cfg]
  rw [runSchedule_eq, dotStep, dotAdvance, position]
  cases s.at s.cfg.std.pre 339 <;> rfl

end Sys2Proof.Machine
end

section
open Sys2Proof Sys2Proof.Machine

/-- Settles O5: the schedule is its rows performed in order, and group by group of the table they are the dot's body. -/
theorem dotStepPerformsItsSchedule : Obligations.DotStepPerformsItsSchedule := by
  intro s
  refine ⟨runSchedule s, performAll_schedule, ?_⟩
  rw [dotStep_eq]
  simp only [State.at, Bool.and_eq_true, decide_eq_true_eq]

end

section
/-! What a dot leaves to the frame events alone, and that it does not read the reply: every micro-operation but the
three frame events does the same whatever the event fields and the reply hold. -/

namespace Sys2Proof.Machine

/-- The state with the fields that only the frame events move (R180-R184), and the reply, put in. -/
def State.withEvents (vbl suppress : Bool) (warmUp : Nat) (r : Reply) (s : State) : State :=
  { s with vbl := vbl, vblSuppress := suppress, warmUp := warmUp, reply := r }

/-- An operation that neither reads nor moves the event fields and the reply. -/
def IgnoresEvents (f : State → State) : Prop :=
  ∀ vbl suppress warmUp r s, f (State.withEvents vbl suppress warmUp r s) = (f s).withEvents vbl suppress warmUp r

section
variable {f : State → State} (h : IgnoresEvents f) (s : State)
include h

theorem IgnoresEvents.keeps : f s = (f s).withEvents s.vbl s.vblSuppress s.warmUp s.reply := h _ _ _ _ s

theorem IgnoresEvents.vbl : (f s).vbl = s.vbl := by rw [h.keeps s]; rfl

theorem IgnoresEvents.vblSuppress : (f s).vblSuppress = s.vblSuppress := by rw [h.keeps s]; rfl

theorem IgnoresEvents.warmUp : (f s).warmUp = s.warmUp := by rw [h.keeps s]; rfl

theorem IgnoresEvents.apply_answer (r : Reply) : f (answer r s) = answer r (f s) :=
  calc f (answer r s)
      = (f s).withEvents s.vbl s.vblSuppress s.warmUp r := h ..
    _ = answer r (f s) := by rw [h.keeps s]; rfl

end

/-- The micro-operations that move the event fields. -/
def frameEvents : List Instr := [.dotVblSet, .dotVblClr, .dotWarmCount]

section
variable (vbl suppress : Bool) (warmUp : Nat) (r : Reply) (s : State)

/-! ### The shared operations -/

theorem peekSub_withEvents (x : Sub) (a : Nat) :
    peekSub x a (s.withEvents vbl suppress warmUp r) =
      ((peekSub x a s).1, (peekSub x a s).2.withEvents vbl suppress warmUp r) := by
  have same : (s.withEvents vbl suppress warmUp r).sub x = s.sub x := by cases x <;> rfl
  unfold peekSub
  rw [same]
  dsimp only
  split
  · rfl
  · split <;> rfl

theorem ppuRead_withEvents (a : BusAddr) :
    ppuRead a (s.withEvents vbl suppress warmUp r) =
      ((ppuRead a s).1, (ppuRead a s).2.withEvents vbl suppress warmUp r) := by
  unfold ppuRead
  split
  · exact peekSub_withEvents ..
  · split
    · exact peekSub_withEvents ..
    · rfl

theorem busFetch_withEvents (a : BusAddr) :
    busFetch a (s.withEvents vbl suppress warmUp r) =
      ((busFetch a s).1, (busFetch a s).2.withEvents vbl suppress warmUp r) :=
  ppuRead_withEvents _ _ _ _ (emitBus a s) a

theorem emitPixel_withEvents (c : Nat) (i : BitVec 5) :
    emitPixel c i (s.withEvents vbl suppress warmUp r) = (emitPixel c i s).withEvents vbl suppress warmUp r := by
  simp only [emitPixel, apply_ite (State.withEvents vbl suppress warmUp r)]
  rfl

theorem fillExtra_withEvents (k : Nat) :
    fillExtra (s.withEvents vbl suppress warmUp r) k = (fillExtra s k).withEvents vbl suppress warmUp r := by
  have same : (s.withEvents vbl suppress warmUp r).slotEntry k = s.slotEntry k := rfl
  unfold fillExtra
  rw [same]
  split
  · rfl
  · simp only [ppuRead_withEvents]
    rfl

theorem evalLoop_withEvents (line cap left n : Nat) (sec : List SprEntry) :
    evalLoop (s.withEvents vbl suppress warmUp r) line cap left n sec = evalLoop s line cap left n sec := by
  induction left generalizing n sec with
  | zero => rfl
  | succ left ih => simp only [evalLoop, ih]; rfl

theorem diagonalScan_withEvents (line left n m : Nat) :
    diagonalScan (s.withEvents vbl suppress warmUp r) line left n m = diagonalScan s line left n m := by
  induction left generalizing n m with
  | zero => rfl
  | succ left ih => simp only [diagonalScan, ih]; rfl

theorem plainScan_withEvents (line left n : Nat) :
    plainScan (s.withEvents vbl suppress warmUp r) line left n = plainScan s line left n := by
  induction left generalizing n with
  | zero => rfl
  | succ left ih => simp only [plainScan, ih]; rfl

theorem evaluate_withEvents : evaluate (s.withEvents vbl suppress warmUp r) = evaluate s := by
  have line : (s.withEvents vbl suppress warmUp r).line = s.line := rfl
  have cfg : (s.withEvents vbl suppress warmUp r).cfg = s.cfg := rfl
  simp only [evaluate, overflowSet, evalLoop_withEvents, diagonalScan_withEvents, plainScan_withEvents, line, cfg]

/-! ### The micro-operations -/

theorem foldl_fillExtra_withEvents (ks : List Nat) :
    ks.foldl fillExtra (s.withEvents vbl suppress warmUp r) =
      (ks.foldl fillExtra s).withEvents vbl suppress warmUp r := by
  induction ks generalizing s with
  | nil => rfl
  | cons k ks ih => rw [List.foldl_cons, List.foldl_cons, fillExtra_withEvents, ih]

end

theorem advance_ignoresEvents : IgnoresEvents advance := by
  intro vbl suppress warmUp r s
  simp only [advance, apply_ite (State.withEvents vbl suppress warmUp r)]
  rfl

theorem microSkip_ignoresEvents : IgnoresEvents microSkip := by
  intro vbl suppress warmUp r s
  simp only [microSkip, advance_ignoresEvents vbl suppress warmUp r s,
    apply_ite (State.withEvents vbl suppress warmUp r)]
  rfl

theorem performed_ignoresEvents {i : Instr} (hi : i.format = .dot) (he : i ∉ frameEvents) :
    IgnoresEvents (performed i) := by
  intro vbl suppress warmUp r s
  have fetch := busFetch_withEvents vbl suppress warmUp r s
  cases i <;> cases hi
  case dotVblSet | dotVblClr | dotWarmCount => exact absurd (by decide) he
  case dotShift | dotIncX | dotIncY | dotHCopy | dotVCopy | dotOamZero | dotIdle => rfl
  case dotPixel => exact emitPixel_withEvents vbl suppress warmUp r { s with s0hit := _ } _ _
  case dotPixelOff => exact emitPixel_withEvents ..
  case dotEval => simp only [performed, exec, execDotEval, microEval, evaluate_withEvents]; rfl
  case dotNt => simp only [performed, exec, execDotNt, microNt, fetch]; rfl
  case dotAt => simp only [performed, exec, execDotAt, microAt, fetch]; rfl
  case dotPtLo => simp only [performed, exec, execDotPtLo, microPtLo, fetch]; rfl
  case dotPtHi => simp only [performed, exec, execDotPtHi, microPtHi, fetch]; rfl
  case dotSprLo => simp only [performed, exec, execDotSprLo, microSprLo, fetch]; rfl
  case dotSprHi => simp only [performed, exec, execDotSprHi, microSprHi, fetch]; rfl
  case dotSprNt2 | dotSprNt4 | dotDummyNt338 | dotDummyNt340 => exact congrArg Prod.snd (fetch (ntAddr s.v))
  case dotSprExtra => exact foldl_fillExtra_withEvents ..
  case dotSkip => exact microSkip_ignoresEvents ..

/-! ### The reply -/

theorem performed_answer (r : Reply) (s : State) {i : Instr} (hi : i.format = .dot) :
    performed i (answer r s) = answer r (performed i s) := by
  by_cases he : i ∈ frameEvents
  · simp only [frameEvents, List.mem_cons, List.not_mem_nil, or_false] at he
    rcases he with rfl | rfl | rfl
    · simp only [performed, exec, execDotVblSet, microVblSet, apply_ite (answer r)]; rfl
    · rfl
    · rfl
  · exact (performed_ignoresEvents hi he).apply_answer s r

theorem runRows_answer {rows : List DotRow} (h : ∀ row ∈ rows, row.instr.format = .dot) (cfg : Setup)
    (line dot : BitVec 9) (on : Bool) (r : Reply) (s : State) :
    runRows rows cfg line dot on (answer r s) = answer r (runRows rows cfg line dot on s) := by
  induction rows generalizing s with
  | nil => rfl
  | cons row rows ih =>
    obtain ⟨hrow, hrows⟩ := List.forall_mem_cons.mp h
    have first (c : Bool) : gate c (performed row.instr) (answer r s) = answer r (gate c (performed row.instr) s) := by
      cases c
      · rfl
      · exact performed_answer r s hrow
    exact (congrArg (runRows rows cfg line dot on) (first _)).trans (ih hrows _)

/-- A dot does not read the reply, and leaves it. -/
theorem dotStep_answer (r : Reply) (s : State) : dotStep (answer r s) = answer r (dotStep s) := by
  have schedule : runSchedule (answer r s) = answer r (runSchedule s) := runRows_answer format_of_mem_dotRows ..
  have position : (answer r s).at (answer r s).cfg.std.pre 339 = s.at s.cfg.std.pre 339 := rfl
  rw [dotStep_eq, dotStep_eq, schedule, position, advance_ignoresEvents.apply_answer, ← apply_ite (answer r)]
  rfl

/-! ### Updates -/

theorem runUntil_answer (fuel time : Nat) (r : Reply) (s : State) :
    runUntil fuel time (answer r s) = answer r (runUntil fuel time s) := by
  induction fuel generalizing s with
  | zero => rfl
  | succ fuel ih => simp only [runUntil, dotStep_answer, ih, answer_clock, apply_ite (answer r)]

theorem updateTo_answer (time : Nat) (r : Reply) (s : State) :
    updateTo time (answer r s) = answer r (updateTo time s) :=
  runUntil_answer ..

theorem dotStep_clock (s : State) : (dotStep s).clock = s.clock + s.cfg.std.dotMaster := by
  change (dotAdvance (dotBody s)).clock + (dotAdvance (dotBody s)).cfg.std.dotMaster = _
  rw [dotAdvance_frame (dotBody s)]
  exact congrArg₂ (· + Std.dotMaster ·.std) (dotBody_frame s).clock (dotBody_frame s).cfg

theorem clock_lt_dotStep (s : State) : s.clock < (dotStep s).clock := by
  have : 0 < s.cfg.std.dotMaster := by cases s.cfg.std <;> decide
  rw [dotStep_clock]
  omega

theorem runUntil_of_le {time : Nat} {s : State} (h : s.clock ≤ time) (fuel : Nat) :
    runUntil (fuel + 1) time s = runUntil fuel time (dotStep s) :=
  if_pos h

theorem runUntil_of_lt {time : Nat} {s : State} (h : time < s.clock) (fuel : Nat) : runUntil fuel time s = s := by
  cases fuel
  · rfl
  · exact if_neg (Nat.not_le.mpr h)

/-- Fuel past what the dots need is not used. -/
theorem runUntil_succ {fuel time : Nat} {s : State} (h : time + 1 - s.clock ≤ fuel) :
    runUntil (fuel + 1) time s = runUntil fuel time s := by
  induction fuel generalizing s with
  | zero => rw [runUntil_of_lt (by omega), runUntil_of_lt (by omega)]
  | succ fuel ih =>
    by_cases hs : s.clock ≤ time
    · have := clock_lt_dotStep s
      rw [runUntil_of_le hs, runUntil_of_le hs, ih (by omega)]
    · rw [runUntil_of_lt (by omega), runUntil_of_lt (by omega)]

theorem runUntil_of_fuel {fuel time : Nat} {s : State} (h : time + 1 - s.clock ≤ fuel) :
    runUntil fuel time s = updateTo time s := by
  induction fuel, h using Nat.le_induction with
  | base => rfl
  | succ fuel h ih => rw [runUntil_succ h, ih]

/-- A dot that starts by `time` is the first of the update's (R342). -/
theorem updateTo_dotStep {time : Nat} {s : State} (h : s.clock ≤ time) :
    updateTo time (dotStep s) = updateTo time s := by
  have := clock_lt_dotStep s
  obtain ⟨fuel, hfuel⟩ : ∃ fuel, time + 1 - s.clock = fuel + 1 := ⟨time - s.clock, by omega⟩
  rw [← runUntil_of_fuel (fuel := fuel) (by omega)]
  exact (runUntil_of_le h fuel).symm.trans (congrArg (runUntil · time s) hfuel.symm)

theorem updateTo_runUntil {first second : Nat} (h : first ≤ second) (fuel : Nat) (s : State) :
    updateTo second (runUntil fuel first s) = updateTo second s := by
  induction fuel generalizing s with
  | zero => rfl
  | succ fuel ih =>
    by_cases hs : s.clock ≤ first
    · rw [runUntil_of_le hs, ih, updateTo_dotStep (by omega)]
    · rw [runUntil_of_lt (by omega)]

end Sys2Proof.Machine
end

section
open Sys2Proof Sys2Proof.Machine

/-- Settles O19: the first update's dots are the first of the second's, and no dot reads the reply between them. -/
theorem updatesCompose : Obligations.UpdatesCompose := by
  intro first second s h
  refine ⟨answer .nothing (updateTo first s), rfl, ?_⟩
  have dots : updateTo second (updateTo first s) = updateTo second s := updateTo_runUntil h ..
  change Host.Outcome.next (answer .nothing (updateTo second (answer .nothing (updateTo first s)))) = exec _ s
  rw [updateTo_answer, dots]
  rfl

end

section
/-! The filter of warm-up on the port writes, and the skip test by its outcome. -/

namespace Sys2Proof.Machine

variable {s : State}

theorem unlessWarming_of_warming (f : State → State) (h : 0 < s.warmUp) : unlessWarming f s = s :=
  if_pos (decide_eq_true h)

/-- A filtered write leaves its byte in the latch, and `nmiLine` as it is (R185, R300). -/
theorem portDone_filtered (f : State → State) (d : Byte) (h : 0 < s.warmUp) :
    portDone s .nothing (unlessWarming f (latchByte d s)) = .next { s with latch := d, reply := .nothing } := by
  rw [unlessWarming_of_warming f (s := latchByte d s) h, portDone, nmiEdge_of_eq (latchByte_nmiLine d s)]
  rfl

theorem microSkip_of_taken (h : s.cfg.std.oddSkip = true ∧ s.odd = true ∧ s.renderOn = true) :
    microSkip s = frameWrap true s := by
  obtain ⟨hstd, hodd, hon⟩ := h
  rw [microSkip, hstd, hodd, hon]
  rfl

theorem microSkip_of_not_taken (h : ¬(s.cfg.std.oddSkip = true ∧ s.odd = true ∧ s.renderOn = true)) :
    microSkip s = advance s :=
  if_neg (by simpa using h)

theorem Std.dots_eq (std : Std) : std.dots = 341 := by cases std <;> rfl

/-- The advance inside a line (R177). -/
theorem advance_of_dot_lt (h : s.dot.toNat < 340) : advance s = { s with dot := s.dot + 1 } :=
  if_pos (by rw [Std.dots_eq]; exact h)

end Sys2Proof.Machine
end

section
open Sys2Proof Sys2Proof.Machine

/-- Settles O34: each of the four writes is filtered after its byte is latched. -/
theorem warmUpFiltersFourPorts : Obligations.WarmUpFiltersFourPorts := by
  intro s d h i hi
  simp only [List.mem_cons, List.not_mem_nil, or_false] at hi
  rcases hi with rfl | rfl | rfl | rfl <;> exact portDone_filtered _ d h

/-- Settles O49: each event is the model's own update, and the skip test wraps the frame or advances from dot 339. -/
theorem eventMicroOperations : Obligations.EventMicroOperations := by
  intro s
  refine ⟨rfl, rfl, ?warmUp, rfl, rfl, fun h => ?taken, fun h hdot => ?advanced⟩
  case warmUp =>
    have count : (if 0 < s.warmUp then s.warmUp - 1 else s.warmUp) = s.warmUp - 1 := by split <;> omega
    rw [count]
    rfl
  case taken => exact ⟨nextBurst true s, congrArg _ (microSkip_of_taken h)⟩
  case advanced =>
    have dot : s.dot = 339 := BitVec.eq_of_toNat_eq hdot
    have skip := (microSkip_of_not_taken h).trans (advance_of_dot_lt (by omega))
    rw [dot] at skip
    exact congrArg _ skip

end

section
/-! The position advance by its outcomes, and that a dot's micro-operations do not move it (R177, R178, R348). -/

namespace Sys2Proof.Machine

variable {s u : State}

/-! ### A dot moves the position as the advance does -/

theorem MicroFrame.frameWrap (short : Bool) (h : MicroFrame s u) :
    MicroFrame (frameWrap short s) (frameWrap short u) := by
  rw [h]; rfl

theorem MicroFrame.advance (h : MicroFrame s u) : MicroFrame (advance s) (advance u) := by
  unfold Machine.advance
  rw [h.dot, h.cfg, h.line]
  split
  · rw [h]; rfl
  · split
    · rw [h]; rfl
    · exact h.frameWrap false

theorem MicroFrame.microSkip (h : MicroFrame s u) : MicroFrame (microSkip s) (microSkip u) := by
  unfold Machine.microSkip
  rw [h.cfg, h.odd, h.renderOn]
  split
  · exact h.frameWrap true
  · exact h.advance

theorem MicroFrame.dotAdvance (h : MicroFrame s u) : MicroFrame (dotAdvance s) (dotAdvance u) := by
  unfold Machine.dotAdvance
  rw [h.at, h.cfg]
  split
  · exact h.microSkip
  · exact h.advance

section
variable (s : State)

theorem dotStep_line : (dotStep s).line = (dotAdvance s).line := (dotBody_frame s).dotAdvance.line
theorem dotStep_dot : (dotStep s).dot = (dotAdvance s).dot := (dotBody_frame s).dotAdvance.dot
theorem dotStep_frame : (dotStep s).frame = (dotAdvance s).frame := (dotBody_frame s).dotAdvance.frame
theorem dotStep_odd : (dotStep s).odd = (dotAdvance s).odd := (dotBody_frame s).dotAdvance.odd
theorem dotStep_burstPhase : (dotStep s).burstPhase = (dotAdvance s).burstPhase :=
  (dotBody_frame s).dotAdvance.burstPhase

end

/-! ### The outcomes of the advance -/

/-- The odd-frame skip is taken at this dot (R178). -/
def State.skips (s : State) : Prop :=
  s.line.toNat = s.cfg.std.pre ∧ s.dot.toNat = 339 ∧ s.cfg.std.oddSkip = true ∧ s.odd = true ∧ s.renderOn = true

/-- The frame ends with this dot (R177, R178). -/
def State.wraps (s : State) : Prop := s.skips ∨ (s.line.toNat = s.cfg.std.pre ∧ s.dot.toNat = 340)

theorem at_iff {line dot : Nat} : s.at line dot = true ↔ s.line.toNat = line ∧ s.dot.toNat = dot := by
  simp only [State.at, Bool.and_eq_true, decide_eq_true_eq]

theorem dotAdvance_of_skips (h : s.skips) : dotAdvance s = frameWrap true s := by
  obtain ⟨hline, hdot, taken⟩ := h
  rw [dotAdvance, if_pos (at_iff.mpr ⟨hline, hdot⟩), microSkip_of_taken taken]

theorem dotAdvance_of_dot_ne (h : s.dot.toNat ≠ 339) : dotAdvance s = advance s :=
  if_neg fun hat => h (at_iff.mp hat).2

theorem dotAdvance_of_last_dot (hline : s.line.toNat = s.cfg.std.pre) (hdot : s.dot.toNat = 340) :
    dotAdvance s = frameWrap false s := by
  rw [dotAdvance_of_dot_ne (by omega), advance, if_neg (by rw [Std.dots_eq]; omega), if_neg (by omega)]

/-- The end of a frame is a wrap, short exactly when the skip is taken. -/
theorem dotAdvance_of_wraps (h : s.wraps) :
    ∃ short, (short = true ↔ s.skips) ∧ dotAdvance s = frameWrap short s := by
  rcases h with h | ⟨hline, hdot⟩
  · exact ⟨true, iff_of_true rfl h, dotAdvance_of_skips h⟩
  · have long : ¬s.skips := fun ⟨_, hskip, _⟩ => by omega
    exact ⟨false, iff_of_false Bool.false_ne_true long, dotAdvance_of_last_dot hline hdot⟩

theorem dotAdvance_in_line (h : ¬s.wraps) (hdot : s.dot.toNat < 340) : dotAdvance s = { s with dot := s.dot + 1 } := by
  have step : dotAdvance s = advance s := by
    unfold dotAdvance
    split
    case isTrue hat =>
      obtain ⟨hline, hdot⟩ := at_iff.mp hat
      exact microSkip_of_not_taken fun taken => h (.inl ⟨hline, hdot, taken⟩)
    case isFalse => rfl
  rw [step, advance_of_dot_lt hdot]

theorem dotAdvance_to_next_line (hline : s.line.toNat < s.cfg.std.pre) (hdot : s.dot.toNat = 340) :
    dotAdvance s = { s with dot := 0, line := s.line + 1 } := by
  rw [dotAdvance_of_dot_ne (by omega), advance, if_neg (by rw [Std.dots_eq]; omega), if_pos hline]

/-! ### The burst phase -/

theorem nextBurst_pal (short : Bool) (h : s.cfg.std = .pal) : nextBurst short s = 0 := by rw [nextBurst, h]

theorem nextBurst_ntsc (short : Bool) (h : s.cfg.std = .ntsc) :
    (nextBurst short s).toNat = (s.burstPhase.toNat + if short then 2 else 1) % 3 := by
  rw [nextBurst, h, BitVec.toNat_ofNat]
  cases short
  · change (s.burstPhase.toNat + 2 * 89342) % 3 % 4 = (s.burstPhase.toNat + 1) % 3
    omega
  · change (s.burstPhase.toNat + 2 * 89341) % 3 % 4 = (s.burstPhase.toNat + 2) % 3
    omega

/-! ### A schedule's position -/

theorem Std.pre_lt (std : Std) : std.pre < 511 := by cases std <;> decide

/-- On schedule, the line is one of the frame's. -/
theorem line_le_pre (hs : s.onSchedule = true) : s.line.toNat ≤ s.cfg.std.pre := by
  obtain ⟨hline, -⟩ := State.onSchedule_iff.mp hs
  have : s.cfg.std.pre + 1 = s.cfg.std.lines := by cases s.cfg.std <;> rfl
  omega

theorem dot_le (hs : s.onSchedule = true) : s.dot.toNat ≤ 340 := by
  obtain ⟨-, hdot, -⟩ := State.onSchedule_iff.mp hs
  rw [Std.dots_eq] at hdot
  omega

theorem toNat_dot_succ (h : s.dot.toNat < 340) : (s.dot + 1).toNat = s.dot.toNat + 1 := by bv_omega

theorem toNat_line_succ (h : s.line.toNat < s.cfg.std.pre) : (s.line + 1).toNat = s.line.toNat + 1 := by
  have := Std.pre_lt s.cfg.std
  bv_omega

end Sys2Proof.Machine
end

section
open Sys2Proof Sys2Proof.Machine

/-- Settles O15, by the outcome of the advance. -/
theorem dotAdvancesThePosition : Obligations.DotAdvancesThePosition := by
  intro s hs
  change (dotStep s).clock = _ ∧ (¬s.wraps → _) ∧ (¬s.wraps → _) ∧ (s.wraps → _) ∧ (s.wraps → _) ∧
    (s.wraps → _ → (s.skips → _) ∧ (¬s.skips → _))
  rw [dotStep_line, dotStep_dot, dotStep_frame, dotStep_odd, dotStep_burstPhase]
  refine ⟨dotStep_clock s, fun h hdot => ?inLine, fun h hdot => ?nextLine, fun h => ?wrap, fun h hstd => ?pal,
    fun h hstd => ?ntsc⟩
  case inLine =>
    rw [dotAdvance_in_line h hdot]
    exact ⟨rfl, toNat_dot_succ hdot, rfl, rfl, rfl⟩
  case nextLine =>
    have hline : s.line.toNat < s.cfg.std.pre :=
      Nat.lt_of_le_of_ne (line_le_pre hs) fun hpre => h (.inr ⟨hpre, hdot⟩)
    rw [dotAdvance_to_next_line hline hdot]
    exact ⟨toNat_line_succ hline, rfl, rfl, rfl, rfl⟩
  all_goals
    obtain ⟨short, hshort, advanced⟩ := dotAdvance_of_wraps h
    rw [advanced]
  case wrap => exact ⟨rfl, rfl, rfl, rfl⟩
  case pal => exact nextBurst_pal short hstd
  case ntsc =>
    refine ⟨fun hskip => ?_, fun hskip => ?_⟩
    · obtain rfl := hshort.mpr hskip
      exact nextBurst_ntsc true hstd
    · obtain rfl := Bool.eq_false_iff.mpr (mt hshort.mp hskip)
      exact nextBurst_ntsc false hstd

end

section
/-! The position as a number of dots into the frame: it rises by one with every dot until the frame's dots are done
(R177-R179). -/

namespace Sys2Proof.Machine

variable {s : State} {n : Nat}

/-! ### What no dot moves -/

theorem dotStep_cfg (s : State) : (dotStep s).cfg = s.cfg := by
  change (dotAdvance (dotBody s)).cfg = s.cfg
  rw [dotAdvance_frame (dotBody s)]
  exact (dotBody_frame s).cfg

theorem dotStep_renderOn (s : State) : (dotStep s).renderOn = s.renderOn := by
  change (dotAdvance (dotBody s)).renderOn = s.renderOn
  rw [dotAdvance_frame (dotBody s)]
  exact (dotBody_frame s).renderOn

theorem runDots_cfg (n : Nat) (s : State) : (runDots n s).cfg = s.cfg :=
  runDots_induct (P := fun t => t.cfg = s.cfg) (fun t ht => (dotStep_cfg t).trans ht) n rfl

theorem runDots_renderOn (n : Nat) (s : State) : (runDots n s).renderOn = s.renderOn :=
  runDots_induct (P := fun t => t.renderOn = s.renderOn) (fun t ht => (dotStep_renderOn t).trans ht) n rfl

theorem runDots_onSchedule (n : Nat) (hs : s.onSchedule = true) : (runDots n s).onSchedule = true :=
  runDots_induct dotStep_onSchedule n hs

theorem runDots_clock (n : Nat) (s : State) : (runDots n s).clock = s.clock + n * s.cfg.std.dotMaster := by
  induction n with
  | zero => rw [Nat.zero_mul]; rfl
  | succ n ih => rw [runDots_succ, dotStep_clock, runDots_cfg, ih, Nat.succ_mul, Nat.add_assoc]

/-! ### The place in the frame -/

/-- The dots of the frame that come before the position (R32, R33). -/
def State.place (s : State) : Nat := s.line.toNat * 341 + s.dot.toNat

theorem place_eq_zero (hline : s.line = 0) (hdot : s.dot = 0) : s.place = 0 := by rw [State.place, hline, hdot]; rfl

theorem frameDots_of_taken (h : s.cfg.std.oddSkip = true ∧ s.odd = true ∧ s.renderOn = true) :
    frameDots s = s.cfg.std.pre * 341 + 340 := by
  obtain ⟨hstd, hodd, hon⟩ := h
  have short : s.cfg.std.frameShort = s.cfg.std.pre * 341 + 340 := by
    cases hs : s.cfg.std
    case ntsc => rfl
    case pal => rw [hs] at hstd; cases hstd
  rw [frameDots, hstd, hodd, hon, ← short]
  rfl

theorem frameDots_of_not_taken (h : ¬(s.cfg.std.oddSkip = true ∧ s.odd = true ∧ s.renderOn = true)) :
    frameDots s = s.cfg.std.pre * 341 + 341 := by
  have long : s.cfg.std.frameLong = s.cfg.std.pre * 341 + 341 := by cases s.cfg.std <;> rfl
  rw [frameDots, if_neg (by simpa using h), long]

/-- The frame ends with the dot that completes its number of dots; at the last dot of the pre-render line a short frame
is over too (R178, R179). -/
theorem wraps_iff (hs : s.onSchedule = true) : s.wraps ↔ frameDots s ≤ s.place + 1 := by
  have hline := line_le_pre hs
  have hdot := dot_le hs
  rw [State.wraps, State.skips, State.place]
  by_cases taken : s.cfg.std.oddSkip = true ∧ s.odd = true ∧ s.renderOn = true
  · rw [frameDots_of_taken taken]
    simp only [taken, and_true]
    omega
  · rw [frameDots_of_not_taken taken]
    simp only [taken, and_false, false_or]
    omega

theorem frameDots_congr {s t : State} (hcfg : t.cfg = s.cfg) (hodd : t.odd = s.odd) (hon : t.renderOn = s.renderOn) :
    frameDots t = frameDots s := by
  rw [frameDots, hcfg, hodd, hon, frameDots]

theorem dotStep_in_frame (hs : s.onSchedule = true) (h : s.place + 1 < frameDots s) :
    (dotStep s).place = s.place + 1 ∧ (dotStep s).frame = s.frame ∧ frameDots (dotStep s) = frameDots s := by
  have inside : ¬s.wraps := fun hw => by have := (wraps_iff hs).mp hw; omega
  have kept (hodd : (dotAdvance s).odd = s.odd) : frameDots (dotStep s) = frameDots s :=
    frameDots_congr (dotStep_cfg s) ((dotStep_odd s).trans hodd) (dotStep_renderOn s)
  rw [State.place, dotStep_line, dotStep_dot, dotStep_frame, State.place]
  by_cases hdot : s.dot.toNat < 340
  · have advanced := dotAdvance_in_line inside hdot
    rw [advanced] at kept ⊢
    have := toNat_dot_succ hdot
    exact ⟨by dsimp only; omega, rfl, kept rfl⟩
  · have hdot : s.dot.toNat = 340 := Nat.le_antisymm (dot_le hs) (Nat.not_lt.mp hdot)
    have hline : s.line.toNat < s.cfg.std.pre :=
      Nat.lt_of_le_of_ne (line_le_pre hs) fun hpre => inside (.inr ⟨hpre, hdot⟩)
    have advanced := dotAdvance_to_next_line hline hdot
    rw [advanced] at kept ⊢
    have := toNat_line_succ hline
    have zero : (0 : BitVec 9).toNat = 0 := rfl
    exact ⟨by dsimp only; omega, rfl, kept rfl⟩

theorem dotStep_ends_frame (hs : s.onSchedule = true) (h : frameDots s ≤ s.place + 1) :
    (dotStep s).line = 0 ∧ (dotStep s).dot = 0 ∧ (dotStep s).frame = s.frame + 1 := by
  obtain ⟨short, -, advanced⟩ := dotAdvance_of_wraps ((wraps_iff hs).mpr h)
  rw [dotStep_line, dotStep_dot, dotStep_frame, advanced]
  exact ⟨rfl, rfl, rfl⟩

/-! ### The dots of a frame -/

theorem runDots_in_frame (hs : s.onSchedule = true) (h : s.place + n < frameDots s) :
    (runDots n s).place = s.place + n ∧ (runDots n s).frame = s.frame ∧ frameDots (runDots n s) = frameDots s := by
  induction n with
  | zero => rw [runDots, Nat.add_zero]; exact ⟨rfl, rfl, rfl⟩
  | succ n ih =>
    obtain ⟨hplace, hframe, hdots⟩ := ih (by omega)
    obtain ⟨hplace', hframe', hdots'⟩ := dotStep_in_frame (runDots_onSchedule n hs) (by omega)
    rw [runDots_succ]
    exact ⟨by omega, hframe'.trans hframe, hdots'.trans hdots⟩

theorem runDots_ends_frame (hs : s.onSchedule = true) (hn : 0 < n) (h : s.place + n = frameDots s) :
    (runDots n s).line = 0 ∧ (runDots n s).dot = 0 ∧ (runDots n s).frame = s.frame + 1 := by
  obtain ⟨m, rfl⟩ := Nat.exists_eq_succ_of_ne_zero (Nat.pos_iff_ne_zero.mp hn)
  obtain ⟨hplace, hframe, hdots⟩ := runDots_in_frame (n := m) hs (by omega)
  rw [runDots_succ, ← hframe]
  exact dotStep_ends_frame (runDots_onSchedule m hs) (by omega)

theorem frameShort_le_frameDots (s : State) : s.cfg.std.frameShort ≤ frameDots s := by
  unfold frameDots
  split
  · exact Nat.le_refl _
  · cases s.cfg.std <;> decide

end Sys2Proof.Machine
end

section
open Sys2Proof Sys2Proof.Machine

/-- Settles O16: the place in the frame counts its dots. -/
theorem frameTakesItsDots : Obligations.FrameTakesItsDots := by
  intro s hs hline hdot
  have start : s.place = 0 := place_eq_zero hline hdot
  have some_dots : 0 < frameDots s :=
    Nat.lt_of_lt_of_le (by cases s.cfg.std <;> decide) (frameShort_le_frameDots s)
  obtain ⟨hline', hdot', hframe'⟩ := runDots_ends_frame hs some_dots (by omega)
  refine ⟨hline', hdot', hframe', runDots_clock .., fun n hn => ?_⟩
  obtain ⟨-, hframe, -⟩ := runDots_in_frame (n := n) hs (by omega)
  exact hframe

end

section
/-! Dots at which rendering is not active: the frame events, the pixel shown with rendering off and the advance are all
they perform (R183, R187, R189). -/

namespace Sys2Proof.Machine

/-- `t` is `s` after dots at which rendering was not active: the pipeline, the sprite unit, the bus and the registers
stand, and neither sprite flag has been set. -/
structure IdleFrame (s t : State) : Prop where
  frame : t = { s with
    line := t.line, dot := t.dot, clock := t.clock, frame := t.frame, odd := t.odd, burstPhase := t.burstPhase
    warmUp := t.warmUp, vblSuppress := t.vblSuppress, vbl := t.vbl, s0hit := t.s0hit, ovf := t.ovf
    nmiReq := t.nmiReq, out := t.out }
  s0hit : s.s0hit = false → t.s0hit = false
  ovf : s.ovf = false → t.ovf = false

theorem IdleFrame.refl (s : State) : IdleFrame s s := ⟨rfl, id, id⟩

theorem IdleFrame.trans {s t u : State} (h : IdleFrame s t) (k : IdleFrame t u) : IdleFrame s u :=
  ⟨by rw [k.frame, h.frame], k.s0hit ∘ h.s0hit, k.ovf ∘ h.ovf⟩

theorem gate_idle {f : State → State} (hf : ∀ s, IdleFrame s (f s)) (c : Bool) (s : State) :
    IdleFrame s (gate c f s) := by
  cases c
  · exact .refl s
  · exact hf s

theorem microVblSet_idle (s : State) : IdleFrame s (microVblSet s) := by
  unfold microVblSet
  split <;> exact ⟨rfl, id, id⟩

theorem microVblClr_idle (s : State) : IdleFrame s (microVblClr s) := ⟨rfl, fun _ => rfl, fun _ => rfl⟩

theorem microWarmCount_idle (s : State) : IdleFrame s (microWarmCount s) := ⟨rfl, id, id⟩

theorem microPixelOff_idle (s : State) : IdleFrame s (microPixelOff s) := by
  rcases emitPixel_eq s.column (offIndex s.v) s with ⟨-, -, -, h⟩ | ⟨-, h⟩
  · rw [microPixelOff, h]; exact ⟨rfl, id, id⟩
  · rw [microPixelOff, h]; exact .refl s

theorem PositionFrame.idle {s t : State} (h : PositionFrame s t) : IdleFrame s t :=
  ⟨by rw [h], by rw [h]; exact id, by rw [h]; exact id⟩

theorem dotBody_idle {s : State} (h : s.renderActive = false) : IdleFrame s (dotBody s) := by
  unfold dotBody
  rw [h]
  exact (((gate_idle microVblSet_idle _ s).trans (gate_idle microVblClr_idle _ _)).trans
    (gate_idle microWarmCount_idle _ _)).trans (gate_idle microPixelOff_idle _ _)

theorem dotStep_idle {s : State} (h : s.renderActive = false) : IdleFrame s (dotStep s) :=
  have clocked (t : State) : IdleFrame t (nmiEdge s (tick t)) := ⟨rfl, id, id⟩
  ((dotBody_idle h).trans (dotAdvance_frame _).idle).trans (clocked _)

theorem runDots_idle {n : Nat} {s : State} (h : ∀ m < n, (runDots m s).renderActive = false) :
    IdleFrame s (runDots n s) := by
  induction n with
  | zero => exact .refl s
  | succ n ih =>
    rw [runDots_succ]
    exact (ih fun m hm => h m (Nat.lt_succ_of_lt hm)).trans (dotStep_idle (h n (Nat.lt_succ_self n)))

theorem renderActive_of_renderOn {s : State} (h : s.renderOn = false) : s.renderActive = false := by
  rw [State.renderActive, h, Bool.false_and]

end Sys2Proof.Machine
end

section
open Sys2Proof Sys2Proof.Machine

/-- Settles O17: each dot performs the frame events, the pixel shown with rendering off and the advance, and no dot
moves the mask. -/
theorem dotsWithRenderingOffAreIdle : Obligations.DotsWithRenderingOffAreIdle := by
  intro n s
  refine ⟨fun h => ?idle, fun h => ?inactive⟩
  case idle =>
    have idle := runDots_idle h
    exact ⟨idle.frame, idle.s0hit, idle.ovf⟩
  case inactive => exact renderActive_of_renderOn ((runDots_renderOn n s).trans h)

end

section
/-! The event fields after a dot: they are those the frame events leave, and those happen at one dot of the frame each
(R180-R184). -/

namespace Sys2Proof.Machine

variable {s : State} {n : Nat}

/-- The vblank set, the flag clear and the warm-up count of a dot, at their positions (R180, R182, R184). -/
def State.afterEvents (s : State) : State :=
  gate (s.at s.cfg.std.pre 1) microWarmCount (gate (s.at s.cfg.std.pre 1) microVblClr
    (gate (s.at s.cfg.std.vblFirst 1) microVblSet s))

theorem runRows_frameEvents (s : State) :
    runRows (dotRows.take 3) s.cfg s.line s.dot s.renderOn s = s.afterEvents := by
  simp only [runRows, dotRows, eventRows, List.cons_append, List.take_succ_cons, List.take_zero, List.foldl_cons,
    List.foldl_nil, selects_at_dot, contains_anyLimit, BitVec.reduceToNat, Bool.and_true, LineClass.holds,
    RenderCond.holds]
  rfl

/-- The two states have the same event fields. -/
def SameEvents (s t : State) : Prop := t.vbl = s.vbl ∧ t.vblSuppress = s.vblSuppress ∧ t.warmUp = s.warmUp

theorem IgnoresEvents.sameEvents {f : State → State} (h : IgnoresEvents f) {s t : State} (ht : SameEvents s t) :
    SameEvents s (f t) := by
  rwa [SameEvents, h.vbl, h.vblSuppress, h.warmUp]

/-- The rows after the frame events move none of the event fields. -/
theorem runSchedule_events (s : State) : SameEvents s.afterEvents (runSchedule s) := by
  have others : ∀ r ∈ dotRows.drop 3, r.instr ∉ frameEvents := by decide
  rw [runSchedule, ← List.take_append_drop 3 dotRows, runRows_append, runRows_frameEvents]
  refine runRows_keeps (P := SameEvents s.afterEvents) (fun r hr t ht => ?_) ⟨rfl, rfl, rfl⟩
  have dot := format_of_mem_dotRows r (List.mem_of_mem_drop hr)
  exact (performed_ignoresEvents dot (others r hr)).sameEvents ht

theorem dotStep_events (s : State) : SameEvents s.afterEvents (dotStep s) := by
  rw [dotStep_eq]
  split
  · exact runSchedule_events s
  · exact advance_ignoresEvents.sameEvents (runSchedule_events s)

/-! ### Warm-up -/

theorem dotStep_warmUp (s : State) :
    (dotStep s).warmUp = if s.at s.cfg.std.pre 1 then s.warmUp - 1 else s.warmUp := by
  obtain ⟨-, -, warm⟩ := dotStep_events s
  have set (c : Bool) : (gate c microVblSet s).warmUp = s.warmUp := by
    cases c
    · rfl
    · rw [gate_true, microVblSet]
      split <;> rfl
  rw [warm, State.afterEvents]
  cases s.at s.cfg.std.pre 1
  · exact set _
  · exact congrArg (· - 1) (set _)

/-- A position on schedule by its place in the frame. -/
theorem at_iff_place (hs : s.onSchedule = true) {line dot : Nat} (hdot : dot ≤ 340) :
    s.at line dot = true ↔ s.place = line * 341 + dot := by
  have := dot_le hs
  rw [at_iff, State.place]
  omega

/-- The dots of a frame count warm-up down once, at the flag clear (R184). -/
theorem runDots_warmUp (hs : s.onSchedule = true) (hstart : s.place = 0) (h : n ≤ frameDots s) :
    (runDots n s).warmUp = if n ≤ s.cfg.std.pre * 341 + 1 then s.warmUp else s.warmUp - 1 := by
  induction n with
  | zero => rfl
  | succ n ih =>
    obtain ⟨hplace, -⟩ := runDots_in_frame (n := n) hs (by omega)
    have clear := at_iff_place (runDots_onSchedule n hs) (line := s.cfg.std.pre) (dot := 1) (by omega)
    rw [runDots_succ, dotStep_warmUp, runDots_cfg, ih (by omega)]
    simp only [clear]
    split_ifs <;> omega

/-! ### Vblank -/

theorem dotStep_vbl_low (hv : s.vbl = false) (h : s.at s.cfg.std.vblFirst 1 = true → s.vblSuppress = true) :
    (dotStep s).vbl = false := by
  obtain ⟨vbl, -⟩ := dotStep_events s
  have set : (gate (s.at s.cfg.std.vblFirst 1) microVblSet s).vbl = false := by
    unfold gate
    split
    · rw [microVblSet, if_pos (h ‹_›)]; exact hv
    · exact hv
  rw [vbl, State.afterEvents]
  cases s.at s.cfg.std.pre 1
  · exact set
  · rfl

theorem nmiLine_of_vbl (h : s.vbl = false) : s.nmiLine = false := by rw [State.nmiLine, h, Bool.false_and]

/-- A dot after which `vbl` is low makes no request (R372). -/
theorem dotStep_nmiReq_of_low (h : (dotStep s).vbl = false) : (dotStep s).nmiReq = s.nmiReq := by
  have low : (tick (dotAdvance (dotBody s))).nmiLine = false := nmiLine_of_vbl h
  have moved : (dotAdvance (dotBody s)).nmiReq = s.nmiReq := by
    rw [dotAdvance_frame (dotBody s)]; exact (dotBody_frame s).nmiReq
  rw [dotStep, nmiEdge_of_low low]
  exact moved

/-- A place comes back only after the frame's dots (R179). -/
theorem runDots_place_ne (hs : s.onSchedule = true) (hplace : s.place < s.cfg.std.frameShort) (hn : 0 < n)
    (h : n < frameDots s) : (runDots n s).place ≠ s.place := by
  have short := frameShort_le_frameDots s
  by_cases inside : s.place + n < frameDots s
  · obtain ⟨hplace', -⟩ := runDots_in_frame hs inside
    omega
  · obtain ⟨j, hj⟩ := Nat.exists_eq_add_of_le (Nat.not_lt.mp inside)
    obtain ⟨rest, hrest⟩ := Nat.exists_eq_add_of_lt (Nat.lt_of_lt_of_le hplace short)
    obtain ⟨hline, hdot, -⟩ := runDots_ends_frame (n := rest + 1) hs (by omega) (by omega)
    have start := place_eq_zero hline hdot
    have short' := frameShort_le_frameDots (runDots (rest + 1) s)
    rw [runDots_cfg] at short'
    obtain ⟨hplace', -⟩ := runDots_in_frame (n := j) (runDots_onSchedule (rest + 1) hs) (by omega)
    have split : n = rest + 1 + j := by omega
    rw [split, runDots_add]
    omega

/-- From a suppressed vblank-set dot on, the flag stays low and no request is made for the frame's dots (R181). -/
theorem runDots_suppressed (hs : s.onSchedule = true) (hat : s.at s.cfg.std.vblFirst 1 = true) (hv : s.vbl = false)
    (hsup : s.vblSuppress = true) (h : n ≤ frameDots s) :
    (runDots n s).vbl = false ∧ (runDots n s).nmiReq = s.nmiReq := by
  have hplace := (at_iff_place hs (by omega)).mp hat
  have early : s.place < s.cfg.std.frameShort := by rw [hplace]; cases s.cfg.std <;> decide
  induction n with
  | zero => exact ⟨hv, rfl⟩
  | succ n ih =>
    obtain ⟨low, req⟩ := ih (by omega)
    have event : (runDots n s).at (runDots n s).cfg.std.vblFirst 1 = true → (runDots n s).vblSuppress = true := by
      rw [runDots_cfg, at_iff_place (runDots_onSchedule n hs) (by omega), ← hplace]
      intro again
      obtain rfl : n = 0 := by
        by_contra hn
        exact runDots_place_ne hs early (by omega) (by omega) again
      exact hsup
    have low' := dotStep_vbl_low low event
    rw [runDots_succ]
    exact ⟨low', (dotStep_nmiReq_of_low low').trans req⟩

/-! ### The status read in the race -/

theorem statusByte_vbl (vbl s0hit ovf : Bool) (latch : Byte) : (statusByte vbl s0hit ovf latch).getLsbD 7 = vbl := by
  simp only [statusByte, BitVec.getLsbD_append]
  simp

theorem ovfBit_snd (s : State) : ∃ n, (ovfBit s).2 = { s with draws := n } := by
  unfold ovfBit
  split
  · exact ⟨_, rfl⟩
  · exact ⟨s.draws, rfl⟩

/-- A status read in the slot before the vblank-set dot (R304). -/
theorem exec_rdStatus_of_race (h : atVblRace s = true) : ∃ (r : Byte) (n : Nat), r.getLsbD 7 = false ∧
    exec .rdStatus s = .next { s with
      vblSuppress := true, vbl := false, w := false, latch := r, draws := n, reply := .byte r } := by
  obtain ⟨n, hn⟩ := ovfBit_snd { s with vblSuppress := true }
  have race : vblBit s = (false, { s with vblSuppress := true }) := if_pos h
  refine ⟨(readStatus s).1, n, ?_, ?_⟩
  · rw [readStatus, race]
    exact statusByte_vbl ..
  · have low : (readStatus s).2.nmiLine = false := nmiLine_of_vbl rfl
    change Host.Outcome.next (answer (.byte (readStatus s).1) (nmiEdge s (readStatus s).2)) = _
    rw [nmiEdge_of_low low]
    simp only [readStatus, race, hn]
    rfl

end Sys2Proof.Machine
end

section
open Sys2Proof Sys2Proof.Machine

/-- Settles O14: the read leaves the flag low and its set suppressed, and the next dot that could set it comes after the
whole frame. -/
theorem vblankRaceLosesTheFrame : Obligations.VblankRaceLosesTheFrame := by
  intro s hs hline hdot
  have race : s.at s.cfg.std.vblFirst 1 = true := at_iff.mpr ⟨hline, hdot⟩
  obtain ⟨r, draws, hr, read⟩ := exec_rdStatus_of_race race
  exact ⟨_, r, read, rfl, hr, fun n hn => runDots_suppressed (s := { s with
    vblSuppress := true, vbl := false, w := false, latch := r, draws := draws, reply := .byte r })
    hs race rfl rfl (hn.trans (frameShort_le_frameDots _))⟩

/-- Settles O18: the frame that a reset begins counts warm-up down once, at its flag clear, and so does the next. -/
theorem warmUpEndsAtTheSecondFlagClear : Obligations.WarmUpEndsAtTheSecondFlagClear := by
  intro s hs hline hdot hoff hwarm
  have long (t : State) (ht : t.renderOn = false) : frameDots t = t.cfg.std.frameLong := by
    rw [frameDots, ht, Bool.and_false]; rfl
  have length : s.cfg.std.frameLong = s.cfg.std.pre * 341 + 341 := by cases s.cfg.std <;> rfl
  have first := long s hoff
  have start := place_eq_zero hline hdot
  have hs' := runDots_onSchedule s.cfg.std.frameLong hs
  have second := long _ ((runDots_renderOn s.cfg.std.frameLong s).trans hoff)
  rw [runDots_cfg] at second
  obtain ⟨hline', hdot', -⟩ := runDots_ends_frame (n := s.cfg.std.frameLong) hs (by omega) (by omega)
  have start' := place_eq_zero hline' hdot'
  have one : (runDots s.cfg.std.frameLong s).warmUp = 1 := by
    rw [runDots_warmUp hs start (by omega), if_neg (by omega), hwarm]
  have inFirst {m : Nat} (hm : m ≤ s.cfg.std.frameLong) : 0 < (runDots m s).warmUp := by
    rw [runDots_warmUp hs start (by omega)]
    split <;> omega
  have inSecond {m : Nat} (hm : m ≤ s.cfg.std.frameLong) : (runDots (s.cfg.std.frameLong + m) s).warmUp =
      if m ≤ s.cfg.std.pre * 341 + 1 then 1 else 0 := by
    rw [runDots_add, runDots_warmUp hs' start' (by omega), runDots_cfg, one]
  rw [Std.dots_eq]
  refine ⟨fun m hm => decide_eq_true ?_, ?_⟩
  · rcases Nat.le_total m s.cfg.std.frameLong with h | h
    · exact inFirst h
    · obtain ⟨j, rfl⟩ := Nat.exists_eq_add_of_le h
      rw [inSecond (by omega), if_pos (by omega)]
      exact Nat.one_pos
  · have past : s.cfg.std.pre * 341 + 1 + s.cfg.std.frameLong + 1 =
        s.cfg.std.frameLong + (s.cfg.std.pre * 341 + 2) := by omega
    rw [past, inSecond (by omega), if_neg (by omega)]

end

section
/-! Bit fields: a masked field as a number, fields put side by side, and what a mask leaves of a field. -/

namespace Sys2Proof.Machine

variable {w i k n : Nat} {a b m : BitVec w}

/-- Masking by `n` ones from bit `k` on keeps that field in its place. -/
theorem toNat_and_field (hm : m.toNat = (2 ^ n - 1) <<< k) : (a &&& m).toNat = a.toNat / 2 ^ k % 2 ^ n * 2 ^ k := by
  rw [BitVec.toNat_and, hm, ← Nat.shiftRight_eq_div_pow, ← Nat.and_two_pow_sub_one_eq_mod, ← Nat.shiftLeft_eq]
  refine Nat.eq_of_testBit_eq fun j => ?_
  by_cases hj : k ≤ j
  · simp [hj, Bool.and_comm]
  · simp [hj]

/-- The union with what lies below a multiple of a power of two is the sum. -/
theorem toNat_or_eq_add (k : Nat) (ha : 2 ^ k ∣ a.toNat) (hb : b.toNat < 2 ^ k) :
    (a ||| b).toNat = a.toNat + b.toNat := by
  obtain ⟨c, hc⟩ := ha
  rw [BitVec.toNat_or, hc, Nat.two_pow_add_eq_or_of_lt hb]

theorem extract_xor_of_clear (h : m.extractLsb' i n = 0) : (a ^^^ m).extractLsb' i n = a.extractLsb' i n := by
  rw [BitVec.extractLsb'_xor, h]; exact BitVec.xor_zero

theorem extract_or_of_clear (h : m.extractLsb' i n = 0) : (a ||| m).extractLsb' i n = a.extractLsb' i n := by
  rw [BitVec.extractLsb'_or, h]; exact BitVec.or_zero

theorem extract_and_of_ones (h : m.extractLsb' i n = .allOnes n) : (a &&& m).extractLsb' i n = a.extractLsb' i n := by
  rw [BitVec.extractLsb'_and, h, BitVec.and_allOnes]

theorem extract_and_of_clear (h : m.extractLsb' i n = 0) : (a &&& m).extractLsb' i n = 0 := by
  rw [BitVec.extractLsb'_and, h]; exact BitVec.and_zero

/-- A field put in its place in a wider word is read back there. -/
theorem extract_placed {x : BitVec n} (h : i + n ≤ w) : (x.setWidth w <<< i).extractLsb' i n = x := by
  refine BitVec.eq_of_getLsbD_eq fun j hj => ?_
  have inside : i + j < w := by omega
  simp [hj, inside]

/-- A field put in its place in a wider word leaves the bits below and above it clear. -/
theorem extract_placed_of_disjoint {k l : Nat} {x : BitVec n} (h : k + l ≤ i ∨ i + n ≤ k) :
    (x.setWidth w <<< i).extractLsb' k l = 0 := by
  refine BitVec.eq_of_getLsbD_eq fun j hj => ?_
  rw [BitVec.getLsbD_extractLsb', BitVec.getLsbD_shiftLeft, BitVec.getLsbD_setWidth]
  rcases h with below | above
  · have outside : k + j < i := by omega
    simp [outside]
  · simp [BitVec.getLsbD_of_ge x (k + j - i) (by omega)]

/-- Replacing the bits of a mask by another word's takes each bit from one of the two. -/
theorem getLsbD_replace (a b m : BitVec w) (k : Nat) :
    (a &&& ~~~m ||| b &&& m).getLsbD k = if m.getLsbD k then b.getLsbD k else a.getLsbD k := by
  rw [BitVec.getLsbD_or, BitVec.getLsbD_and, BitVec.getLsbD_and, BitVec.getLsbD_not]
  by_cases hk : k < w
  · cases m.getLsbD k <;> simp [hk]
  · simp [BitVec.getLsbD_of_ge _ k (Nat.not_lt.mp hk)]

end Sys2Proof.Machine
end

section
/-! The background fetches: each address in numbers, what the attribute byte gives, and the shift buffers
in numbers. -/

namespace Sys2Proof.Machine

/-! ### The addresses in numbers (R129, R131, R211-R213) -/

theorem ntAddr_eq_ofNat (v : VAddr) : ntAddr v = BitVec.ofNat 14 (0x2000 + v.toNat % 0x1000) := by
  have offset : ((v &&& 0x0FFF).setWidth 14).toNat = v.toNat % 0x1000 := by
    rw [BitVec.toNat_setWidth, toNat_and_field (k := 0) (n := 12) rfl]; omega
  have sum : (ntAddr v).toNat = 0x2000 + v.toNat % 0x1000 :=
    (toNat_or_eq_add 12 (by decide) (by omega)).trans (congrArg _ offset)
  rw [← sum, BitVec.ofNat_toNat, BitVec.setWidth_eq]

/-- An attribute address from its parts: the name table, its last 64 bytes, and there the row and the column (R131). -/
theorem toNat_atAddr_parts {table row column : BusAddr} {n y x : Nat} (ht : table.toNat = 0x400 * n) (hn : n < 4)
    (hr : row.toNat = 8 * y) (hy : y < 8) (hc : column.toNat = x) (hx : x < 8) :
    (0x23C0 ||| table ||| row ||| column).toNat = 0x23C0 + 0x400 * n + 8 * y + x := by
  have split : 0x23C0 ||| table ||| row ||| column = 0x2000#14 ||| table ||| 0x03C0#14 ||| row ||| column := by
    rw [BitVec.or_assoc 0x2000#14, BitVec.or_comm table 0x03C0#14, ← BitVec.or_assoc 0x2000#14]; rfl
  have tables : (0x2000#14 ||| table).toNat = 0x2000 + 0x400 * n := by
    rw [toNat_or_eq_add 12 (by decide) (by omega), ht]; rfl
  have bytes : (0x2000#14 ||| table ||| 0x03C0#14).toNat = 0x23C0 + 0x400 * n := by
    rw [toNat_or_eq_add 10 (by omega) (by decide), tables, BitVec.toNat_ofNat]; omega
  have rows : (0x2000#14 ||| table ||| 0x03C0#14 ||| row).toNat = 0x23C0 + 0x400 * n + 8 * y := by
    rw [toNat_or_eq_add 6 (by omega) (by omega), bytes, hr]
  rw [split, toNat_or_eq_add 3 (by omega) (by omega), rows, hc]

theorem atAddr_eq_ofNat (v : VAddr) :
    atAddr v = BitVec.ofNat 14 (0x23C0 + 0x400 * ntSelect v + 8 * (coarseY v / 4) + coarseX v / 4) := by
  have table : ((v &&& 0x0C00).setWidth 14).toNat = 0x400 * ntSelect v := by
    rw [BitVec.toNat_setWidth, toNat_and_field (k := 10) (n := 2) rfl, ntSelect]; omega
  have row : (((v >>> 4) &&& 0x38).setWidth 14).toNat = 8 * (coarseY v / 4) := by
    rw [BitVec.toNat_setWidth, toNat_and_field (k := 3) (n := 3) rfl, BitVec.toNat_ushiftRight,
      Nat.shiftRight_eq_div_pow, coarseY]
    omega
  have column : (((v >>> 2) &&& 0x07).setWidth 14).toNat = coarseX v / 4 := by
    rw [BitVec.toNat_setWidth, toNat_and_field (k := 0) (n := 3) rfl, BitVec.toNat_ushiftRight,
      Nat.shiftRight_eq_div_pow, coarseX]
    omega
  have hn : ntSelect v < 4 := Nat.mod_lt _ (by decide)
  have hy : coarseY v < 32 := Nat.mod_lt _ (by decide)
  have hx : coarseX v < 32 := Nat.mod_lt _ (by decide)
  rw [← toNat_atAddr_parts table (by omega) row (by omega) column (by omega), BitVec.ofNat_toNat, BitVec.setWidth_eq]
  rfl

theorem fineRow_lt (v : VAddr) : fineRow v < 8 := Nat.div_lt_of_lt_mul v.isLt

theorem toNat_fineY (v : VAddr) : (fineY v).toNat = fineRow v := by
  rw [fineY, BitVec.extractLsb'_toNat, Nat.shiftRight_eq_div_pow, fineRow]
  exact Nat.mod_eq_of_lt (fineRow_lt v)

/-- A pattern address in numbers: the table, the tile and the place within its sixteen bytes (R129). -/
theorem toNat_pattern (high : Bool) (tile : Byte) {place : BusAddr} (hp : place.toNat < 2 ^ 4) :
    ((BitVec.ofBool high).setWidth 14 <<< 12 ||| tile.setWidth 14 <<< 4 ||| place).toNat =
      (if high then 0x1000 else 0) + 16 * tile.toNat + place.toNat := by
  have table : ((BitVec.ofBool high).setWidth 14 <<< 12 : BusAddr).toNat = if high then 0x1000 else 0 := by
    cases high <;> rfl
  have number : (tile.setWidth 14 <<< 4 : BusAddr).toNat = 16 * tile.toNat := by
    rw [BitVec.toNat_shiftLeft, BitVec.toNat_setWidth, Nat.shiftLeft_eq]
    omega
  have above : 2 ^ 12 ∣ if high then 0x1000 else 0 := by cases high <;> decide
  have sum := toNat_or_eq_add 12 (a := (BitVec.ofBool high).setWidth 14 <<< 12) (b := tile.setWidth 14 <<< 4)
    (table ▸ above) (by omega)
  rw [table, number] at sum
  rw [toNat_or_eq_add 4 (by omega) hp, sum]

theorem toNat_fineY_setWidth (v : VAddr) : ((fineY v).setWidth 14).toNat = fineRow v := by
  rw [BitVec.toNat_setWidth, toNat_fineY]
  exact Nat.mod_eq_of_lt ((fineRow_lt v).trans (by decide))

theorem bgAddr_eq_ofNat (ctrl nt : Byte) (v : VAddr) : bgAddr ctrl nt v =
    BitVec.ofNat 14 ((if ctrl.getLsbD 4 then 0x1000 else 0) + 16 * nt.toNat + fineRow v) := by
  have row := toNat_fineY_setWidth v
  have low := fineRow_lt v
  rw [← row, ← toNat_pattern _ _ (by omega), BitVec.ofNat_toNat, BitVec.setWidth_eq, bgAddr]

/-- The high plane is the second eight bytes of the tile (R215). -/
theorem bgAddr_or_eight_eq_ofNat (ctrl nt : Byte) (v : VAddr) : bgAddr ctrl nt v ||| 8 =
    BitVec.ofNat 14 ((if ctrl.getLsbD 4 then 0x1000 else 0) + 16 * nt.toNat + fineRow v + 8) := by
  have low := fineRow_lt v
  have row : (8#14 ||| (fineY v).setWidth 14).toNat = fineRow v + 8 := by
    rw [toNat_or_eq_add 3 (by decide) (by rw [toNat_fineY_setWidth]; exact low), toNat_fineY_setWidth]
    exact Nat.add_comm ..
  rw [Nat.add_assoc, ← row, ← toNat_pattern _ _ (by omega), BitVec.ofNat_toNat, BitVec.setWidth_eq, bgAddr,
    BitVec.or_assoc, BitVec.or_comm 8#14]
  rfl

/-! ### What an attribute byte gives (R131, R212) -/

theorem atShift_eq (v : VAddr) : atShift v = 2 * (2 * (coarseY v / 2 % 2) + coarseX v / 2 % 2) := by
  have row : ((v >>> 4) &&& 0x04).toNat = 4 * (coarseY v / 2 % 2) := by
    rw [toNat_and_field (k := 2) (n := 1) rfl, BitVec.toNat_ushiftRight, Nat.shiftRight_eq_div_pow, coarseY]
    omega
  have column : (v &&& 0x02).toNat = 2 * (coarseX v / 2 % 2) := by
    rw [toNat_and_field (k := 1) (n := 1) rfl, coarseX]
    omega
  rw [atShift, toNat_or_eq_add 2 (by omega) (by omega), row, column]
  omega

theorem toNat_atGroup (v : VAddr) (b : Byte) :
    (atGroup v b).toNat = b.toNat / 4 ^ (2 * (coarseY v / 2 % 2) + coarseX v / 2 % 2) % 4 := by
  rw [atGroup, atShift_eq, BitVec.toNat_setWidth, BitVec.toNat_ushiftRight, Nat.shiftRight_eq_div_pow, Nat.pow_mul]

/-! ### The shift buffers in numbers (R214, R215) -/

theorem toNat_reload (sh : Shifter) {low : Shifter} (h : low.toNat < 256) :
    (reload sh low).toNat = sh.toNat / 256 * 256 + low.toNat := by
  have high : (sh &&& 0xFF00).toNat = sh.toNat / 256 * 256 := by
    rw [toNat_and_field (k := 8) (n := 8) rfl]; omega
  rw [reload, toNat_or_eq_add 8 (by omega) h, high]

theorem toNat_reload_byte (sh : Shifter) (b : Byte) :
    (reload sh (b.setWidth 16)).toNat = sh.toNat / 256 * 256 + b.toNat := by
  have byte : (b.setWidth 16).toNat = b.toNat := BitVec.toNat_setWidth_of_le (by decide)
  rw [toNat_reload sh (byte ▸ b.isLt), byte]

theorem toNat_reload_group (sh : Shifter) (bit : Bool) :
    (reload sh (groupFill bit)).toNat = sh.toNat / 256 * 256 + if bit then 255 else 0 := by
  rw [toNat_reload sh (by cases bit <;> decide)]
  cases bit <;> rfl

theorem toNat_shiftLeft_one (sh : Shifter) : (sh <<< 1).toNat = 2 * sh.toNat % 65536 := by
  rw [BitVec.toNat_shiftLeft, Nat.shiftLeft_eq, Nat.mul_comm]

end Sys2Proof.Machine
end

section
open Sys2Proof Sys2Proof.Machine

/-- Settles O50: what each fetch does is the model's own equation, and its address and quadrant are those numbers. -/
theorem backgroundFetchesLatchTheirBytes : Obligations.BackgroundFetchesLatchTheirBytes := by
  intro s
  dsimp only
  rw [← ntAddr_eq_ofNat, ← atAddr_eq_ofNat, ← bgAddr_eq_ofNat]
  refine ⟨?nametable, ?group, ?pattern, fun i hi => ?dummy⟩
  case nametable =>
    obtain ⟨n, h⟩ := microNt_eq s
    exact ⟨n, congrArg _ h⟩
  case group =>
    obtain ⟨n, h⟩ := microAt_eq s
    exact ⟨n, _, congrArg _ h, toNat_atGroup ..⟩
  case pattern =>
    obtain ⟨n, h⟩ := microPtLo_eq s
    exact ⟨n, congrArg _ h⟩
  case dummy =>
    obtain ⟨n, h⟩ := dummyFetch_eq s
    simp only [List.mem_cons, List.not_mem_nil, or_false] at hi
    rcases hi with rfl | rfl | rfl | rfl <;> exact ⟨n, congrArg _ h⟩

/-- Settles O51: the fetch's equation, with each buffer's reload and shift in numbers. -/
theorem shiftAndReload : Obligations.ShiftAndReload := by
  intro s
  dsimp only
  rw [← bgAddr_or_eight_eq_ofNat]
  refine ⟨?reload, ?shift⟩
  case reload =>
    obtain ⟨n, h⟩ := microPtHi_eq s
    exact ⟨n, _, _, _, _, congrArg _ h, toNat_reload_byte .., toNat_reload_byte .., toNat_reload_group ..,
      toNat_reload_group ..⟩
  case shift =>
    exact ⟨_, _, _, _, rfl, toNat_shiftLeft_one _, toNat_shiftLeft_one _, toNat_shiftLeft_one _,
      toNat_shiftLeft_one _⟩

end

section
/-! The background candidate by its conditions, what a run of shifts does, and where a reload's bits then stand. -/

namespace Sys2Proof.Machine

/-! ### The candidate (R221, R282) -/

theorem bgPixel_of_off {column : Nat} {s : State} (h : s.mask.getLsbD 3 = false) : bgPixel column s = none := by
  rw [bgPixel, h]; rfl

theorem bgPixel_of_clipped {column : Nat} {s : State} (hc : column < 8) (h : s.mask.getLsbD 1 = false) :
    bgPixel column s = none := by
  rw [bgPixel, h, decide_eq_true hc, Bool.not_false, Bool.and_self, Bool.or_true]; rfl

theorem bgPixel_of_shown {column : Nat} {s : State} (hon : s.mask.getLsbD 3 = true)
    (hcol : 8 ≤ column ∨ s.mask.getLsbD 1 = true) :
    bgPixel column s =
      if planeBits s.shHi s.shLo (15 - s.x.toNat) = 0 then none
      else some (planeBits s.atShHi s.atShLo (15 - s.x.toNat) ++ planeBits s.shHi s.shLo (15 - s.x.toNat)) := by
  have shown : (!s.mask.getLsbD 3 || (decide (column < 8) && !s.mask.getLsbD 1)) = false := by
    rcases hcol with h | h
    · rw [hon, decide_eq_false (Nat.not_lt.mpr h)]; rfl
    · rw [hon, h, Bool.not_true, Bool.and_false]; rfl
  rw [bgPixel, shown]
  rfl

/-! ### A run of shifts (R214) -/

/-- The state after `n` background shifts. -/
def shiftedBy (n : Nat) (s : State) : State :=
  { s with shLo := s.shLo <<< n, shHi := s.shHi <<< n, atShLo := s.atShLo <<< n, atShHi := s.atShHi <<< n }

theorem performAll_shifts (n : Nat) (s : State) :
    performAll (List.replicate n .dotShift) s = .next (shiftedBy n s) := by
  induction n generalizing s with
  | zero => simp only [shiftedBy, BitVec.shiftLeft_zero]; rfl
  | succ n ih =>
    have first : exec .dotShift s = .next (shiftedBy 1 s) := rfl
    rw [List.replicate_succ, performAll, first]
    refine (ih _).trans ?_
    simp only [shiftedBy, ← BitVec.shiftLeft_add, Nat.add_comm 1]

theorem planeBits_shiftLeft {w n b : Nat} (hi lo : BitVec w) (h : n ≤ b) (hb : b < w) :
    planeBits (hi <<< n) (lo <<< n) b = planeBits hi lo (b - n) := by
  simp only [planeBits, BitVec.getLsbD_shiftLeft, hb, Nat.not_lt.mpr h, decide_true, decide_false, Bool.not_false,
    Bool.true_and]

/-- Shifts bring lower bits of the buffers to the one that is selected. -/
theorem bgPixel_shiftedBy {column n : Nat} {s : State} (hon : s.mask.getLsbD 3 = true)
    (hcol : 8 ≤ column ∨ s.mask.getLsbD 1 = true) (hn : n ≤ 15 - s.x.toNat) :
    bgPixel column (shiftedBy n s) =
      if planeBits s.shHi s.shLo (15 - s.x.toNat - n) = 0 then none
      else some (planeBits s.atShHi s.atShLo (15 - s.x.toNat - n) ++
        planeBits s.shHi s.shLo (15 - s.x.toNat - n)) := by
  rw [bgPixel_of_shown (s := shiftedBy n s) hon hcol]
  simp only [shiftedBy, planeBits_shiftLeft _ _ hn (Nat.lt_succ_of_le (Nat.sub_le 15 s.x.toNat))]

/-! ### What a reload brings in (R215) -/

theorem getLsbD_reload {k : Nat} (sh low : Shifter) (hk : k < 8) : (reload sh low).getLsbD k = low.getLsbD k := by
  have clear : ∀ k < 8, (0xFF00 : Shifter).getLsbD k = false := by decide
  rw [reload, BitVec.getLsbD_or, BitVec.getLsbD_and, clear k hk, Bool.and_false, Bool.false_or]

theorem planeBits_reload_bytes {k : Nat} (hi lo : Shifter) (hi' lo' : Byte) (hk : k < 8) :
    planeBits (reload hi (hi'.setWidth 16)) (reload lo (lo'.setWidth 16)) k =
      BitVec.ofBool (hi'.getLsbD k) ++ BitVec.ofBool (lo'.getLsbD k) := by
  have inside : k < 16 := by omega
  simp only [planeBits, getLsbD_reload _ _ hk, BitVec.getLsbD_setWidth, inside, decide_true, Bool.true_and]

theorem planeBits_reload_group {k : Nat} (hi lo : Shifter) (group : BitVec 2) (hk : k < 8) :
    planeBits (reload hi (groupFill (group.getLsbD 1))) (reload lo (groupFill (group.getLsbD 0))) k = group := by
  have fill : ∀ bit, ∀ k < 8, (groupFill bit).getLsbD k = bit := by decide
  rw [planeBits, getLsbD_reload _ _ hk, getLsbD_reload _ _ hk, fill _ k hk, fill _ k hk]
  decide +revert

/-- After the pattern high fetch the low eight bits of the buffers are the latched tile, and what selects and shows a
bit stands. -/
theorem microPtHi_reloads (s : State) :
    (microPtHi s).x = s.x ∧ (microPtHi s).mask = s.mask ∧ ∀ k < 8,
      planeBits (microPtHi s).shHi (microPtHi s).shLo k =
        BitVec.ofBool ((microPtHi s).ptHi.getLsbD k) ++ BitVec.ofBool (s.ptLo.getLsbD k) ∧
      planeBits (microPtHi s).atShHi (microPtHi s).atShLo k = s.atLatch := by
  obtain ⟨n, h⟩ := microPtHi_eq s
  rw [h]
  exact ⟨rfl, rfl, fun k hk => ⟨planeBits_reload_bytes _ _ _ _ hk, planeBits_reload_group _ _ _ hk⟩⟩

end Sys2Proof.Machine
end

section
open Sys2Proof Sys2Proof.Machine

/-- Settles O52: after `8 + c - x` shifts the selected bit `15 - x` is the reload's bit `7 - c`. -/
theorem reloadedTileIsShownInOrder : Obligations.ReloadedTileIsShownInOrder := by
  refine ⟨fun s column => ⟨bgPixel_of_off, bgPixel_of_clipped, bgPixel_of_shown⟩, ?reloaded⟩
  intro s t c column h hc hx hon hcol
  obtain rfl : microPtHi s = t := Host.Outcome.next.inj h
  obtain ⟨fineX, mask, tile⟩ := microPtHi_reloads s
  obtain ⟨value, group⟩ := tile (7 - c) (by omega)
  have small := s.x.isLt
  have bit : 15 - s.x.toNat - (8 + c - s.x.toNat) = 7 - c := by omega
  refine ⟨_, performAll_shifts .., ?_⟩
  rw [← mask] at hon hcol
  rw [bgPixel_shiftedBy hon hcol (by rw [fineX]; omega), fineX, bit, value, group]

end

section
/-! The fields of `v` under the increments: each operation moves the fields it names and a mask keeps the others. -/

namespace Sys2Proof.Machine

/-! ### The fields as bits (R127) -/

theorem coarseX_eq_extract (v : VAddr) : coarseX v = (v.extractLsb' 0 5).toNat := by
  rw [BitVec.extractLsb'_toNat]; rfl

theorem coarseY_eq_extract (v : VAddr) : coarseY v = (v.extractLsb' 5 5).toNat := by
  rw [BitVec.extractLsb'_toNat, Nat.shiftRight_eq_div_pow]; rfl

theorem fineRow_eq_extract (v : VAddr) : fineRow v = (v.extractLsb' 12 3).toNat := (toNat_fineY v).symm

theorem getLsbD_eq_decide (v : VAddr) (k : Nat) : v.getLsbD k = decide (v.toNat / 2 ^ k % 2 = 1) :=
  Nat.testBit_eq_decide_div_mod_eq

/-! ### Coarse X (R216) -/

theorem coarseX_mask (v : VAddr) : v &&& 0x001F = 31 ↔ coarseX v = 31 := by
  have field : (v &&& 0x001F).toNat = coarseX v := BitVec.toNat_and .. |>.trans (Nat.and_two_pow_sub_one_eq_mod _ 5)
  rw [← BitVec.toNat_inj, field]
  rfl

theorem incX_of_inner {v : VAddr} (h : coarseX v ≠ 31) : incX v = v + 1 := if_neg (mt (coarseX_mask v).mp h)

theorem incX_of_last {v : VAddr} (h : coarseX v = 31) : incX v = (v &&& ~~~(0x001F : VAddr)) ^^^ 0x0400 :=
  if_pos ((coarseX_mask v).mpr h)

theorem incX_fields (v : VAddr) :
    coarseX (incX v) = (coarseX v + 1) % 32 ∧ coarseY (incX v) = coarseY v ∧ fineRow (incX v) = fineRow v ∧
      (incX v).getLsbD 11 = v.getLsbD 11 ∧ (incX v).getLsbD 10 = (v.getLsbD 10 != decide (coarseX v = 31)) := by
  by_cases h : coarseX v = 31
  case pos =>
    rw [incX_of_last h, h]
    refine ⟨?_, ?_, ?_, by simp, by simp⟩
    · rw [coarseX_eq_extract, extract_xor_of_clear (by decide), extract_and_of_clear (by decide)]; rfl
    · rw [coarseY_eq_extract, extract_xor_of_clear (by decide), extract_and_of_ones (by decide), coarseY_eq_extract]
    · rw [fineRow_eq_extract, extract_xor_of_clear (by decide), extract_and_of_ones (by decide), fineRow_eq_extract]
  case neg =>
    have room : v.toNat + 1 < 2 ^ 15 := by
      have := v.isLt
      rw [coarseX] at h
      omega
    have sum : (v + 1).toNat = v.toNat + 1 := BitVec.toNat_add_of_lt room
    rw [incX_of_inner h, decide_eq_false h, Bool.bne_false]
    simp only [getLsbD_eq_decide, coarseX, coarseY, fineRow, sum, decide_eq_decide] at h ⊢
    omega

/-! ### Fine and coarse Y (R217) -/

theorem fineRow_mask (v : VAddr) : v &&& 0x7000 = 0x7000 ↔ fineRow v = 7 := by
  have field : (v &&& 0x7000).toNat = fineRow v * 0x1000 := by
    rw [toNat_and_field (k := 12) (n := 3) rfl]
    exact congrArg (· * 0x1000) (Nat.mod_eq_of_lt (fineRow_lt v))
  have last : (0x7000 : VAddr).toNat = 7 * 0x1000 := rfl
  rw [← BitVec.toNat_inj, field, last, Nat.mul_left_inj (by decide)]

theorem incY_of_inner {v : VAddr} (h : fineRow v ≠ 7) : incY v = v + 0x1000 :=
  if_pos (mt (fineRow_mask v).mp h)

/-- `v` at the top of another row of tiles: fine Y 0, the given coarse Y, the vertical name table switched or kept. -/
def newTileRow (v : VAddr) (cy : BitVec 5) (switch : Bool) : VAddr :=
  ((v &&& ~~~(0x7000 : VAddr)) ^^^ (if switch then 0x0800 else 0)) &&& ~~~(0x03E0 : VAddr) ||| cy.setWidth 15 <<< 5

theorem incY_of_last {v : VAddr} (h : fineRow v = 7) :
    incY v = newTileRow v (nextCoarseY (v.extractLsb' 5 5)).1 (nextCoarseY (v.extractLsb' 5 5)).2 := by
  have last := not_not.mpr ((fineRow_mask v).mpr h)
  have row : (v &&& ~~~(0x7000 : VAddr)).extractLsb' 5 5 = v.extractLsb' 5 5 := extract_and_of_ones (by decide)
  rw [incY, if_neg last]
  dsimp only
  rw [row, newTileRow]
  cases (nextCoarseY (v.extractLsb' 5 5)).2
  · exact congrArg (· &&& ~~~(0x03E0 : VAddr) ||| _) BitVec.xor_zero.symm
  · rfl

theorem nextCoarseY_eq (cy : BitVec 5) : (nextCoarseY cy).2 = decide (cy.toNat = 29) ∧
    (nextCoarseY cy).1.toNat = if cy.toNat = 29 ∨ cy.toNat = 31 then 0 else cy.toNat + 1 := by
  decide +revert

section
variable (v : VAddr) (cy : BitVec 5) (switch : Bool)

theorem coarseX_newTileRow : coarseX (newTileRow v cy switch) = coarseX v := by
  rw [coarseX_eq_extract, newTileRow, extract_or_of_clear (extract_placed_of_disjoint (by decide)),
    extract_and_of_ones (by decide), extract_xor_of_clear (by cases switch <;> decide),
    extract_and_of_ones (by decide), coarseX_eq_extract]

theorem coarseY_newTileRow : coarseY (newTileRow v cy switch) = cy.toNat := by
  rw [coarseY_eq_extract, newTileRow, BitVec.extractLsb'_or, extract_placed (by decide),
    extract_and_of_clear (by decide)]
  exact congrArg BitVec.toNat BitVec.zero_or

theorem fineRow_newTileRow : fineRow (newTileRow v cy switch) = 0 := by
  rw [fineRow_eq_extract, newTileRow, extract_or_of_clear (extract_placed_of_disjoint (by decide)),
    extract_and_of_ones (by decide), extract_xor_of_clear (by cases switch <;> decide),
    extract_and_of_clear (by decide)]
  rfl

theorem getLsbD_newTileRow : (newTileRow v cy switch).getLsbD 10 = v.getLsbD 10 ∧
    (newTileRow v cy switch).getLsbD 11 = (v.getLsbD 11 != switch) := by
  cases switch <;> simp [newTileRow]

end

theorem incY_fields (v : VAddr) :
    coarseX (incY v) = coarseX v ∧ fineRow (incY v) = (fineRow v + 1) % 8 ∧ (incY v).getLsbD 10 = v.getLsbD 10 ∧
      coarseY (incY v) = (if fineRow v < 7 then coarseY v
        else if coarseY v = 29 ∨ coarseY v = 31 then 0 else coarseY v + 1) ∧
      (incY v).getLsbD 11 = (v.getLsbD 11 != decide (fineRow v = 7 ∧ coarseY v = 29)) := by
  by_cases h : fineRow v = 7
  case pos =>
    obtain ⟨switch, row⟩ := nextCoarseY_eq (v.extractLsb' 5 5)
    obtain ⟨horizontal, vertical⟩ := getLsbD_newTileRow v (nextCoarseY (v.extractLsb' 5 5)).1
      (nextCoarseY (v.extractLsb' 5 5)).2
    rw [incY_of_last h, horizontal, vertical, coarseX_newTileRow, coarseY_newTileRow, fineRow_newTileRow, row, switch,
      ← coarseY_eq_extract]
    simp [h]
  case neg =>
    have low := fineRow_lt v
    have room : v.toNat + 0x1000 < 2 ^ 15 := by
      rw [fineRow] at h low
      omega
    have sum : (v + 0x1000).toNat = v.toNat + 0x1000 := BitVec.toNat_add_of_lt room
    rw [incY_of_inner h, if_pos (by omega), decide_eq_false (fun last => h last.1), Bool.bne_false]
    simp only [getLsbD_eq_decide, coarseX, coarseY, fineRow, sum, decide_eq_decide] at h low ⊢
    omega

/-! ### The copies from `t` (R218, R219) -/

theorem getLsbD_hCopy (v t : VAddr) (k : Nat) :
    (hCopy v t).getLsbD k = if k < 5 ∨ k = 10 then t.getLsbD k else v.getLsbD k := by
  have mask : ∀ k < 15, (0x041F : VAddr).getLsbD k = decide (k < 5 ∨ k = 10) := by decide
  rw [hCopy, getLsbD_replace]
  by_cases hk : k < 15
  · simp only [mask k hk, decide_eq_true_eq]
  · simp only [BitVec.getLsbD_of_ge _ k (Nat.not_lt.mp hk), ite_self]

theorem getLsbD_vCopy (v t : VAddr) (k : Nat) :
    (vCopy v t).getLsbD k = if (5 ≤ k ∧ k < 10) ∨ 11 ≤ k then t.getLsbD k else v.getLsbD k := by
  have mask : ∀ k < 15, (0x7BE0 : VAddr).getLsbD k = decide ((5 ≤ k ∧ k < 10) ∨ 11 ≤ k) := by decide
  rw [vCopy, getLsbD_replace]
  by_cases hk : k < 15
  · simp only [mask k hk, decide_eq_true_eq]
  · simp only [BitVec.getLsbD_of_ge _ k (Nat.not_lt.mp hk), ite_self]

end Sys2Proof.Machine
end

section
open Sys2Proof Sys2Proof.Machine

/-- Settles O53, by the fields of the model's four updates of `v`. -/
theorem scrollArithmetic : Obligations.ScrollArithmetic := by
  intro s
  exact ⟨⟨_, rfl, incX_fields s.v⟩, ⟨_, rfl, incY_fields s.v⟩, ⟨_, rfl, getLsbD_hCopy s.v s.t⟩,
    ⟨_, rfl, getLsbD_vCopy s.v s.t⟩⟩

end

section
/-! Sprite evaluation: the entries in range, what the selection loop takes of them and leaves, and what the two overflow
scans find behind it. -/

namespace Sys2Proof.Machine

variable {s : State} {cap left n : Nat} {sec : List SprEntry}

/-! ### The entries in range (R243) -/

theorem inRange_iff {height : Nat} {y : Byte} {line : Nat} :
    inRange height y line = true ↔ y.toNat ≤ line ∧ line < y.toNat + height := by
  simp only [inRange, Bool.and_eq_true, decide_eq_true_eq]
  omega

/-- Whether OAM entry `n` is in range on the current line. -/
def State.hits (s : State) (n : Nat) : Bool := inRange (spriteHeight s.ctrl) (s.oamByte (4 * n)) s.line.toNat

/-- The entries in range among the `left` entries from `n` on. -/
def hitsFrom (s : State) (left n : Nat) : List Nat := (List.range' n left).filter s.hits

theorem entriesInRange_eq (s : State) : entriesInRange s = hitsFrom s 64 0 := by
  rw [entriesInRange, hitsFrom, List.range_eq_range']
  refine List.filter_congr fun n _ => ?_
  rw [Bool.eq_iff_iff, State.hits, inRange_iff, Bool.and_eq_true, decide_eq_true_eq, decide_eq_true_eq]
  rfl

@[simp] theorem hitsFrom_zero (s : State) (n : Nat) : hitsFrom s 0 n = [] := rfl

theorem hitsFrom_of_hit (h : s.hits n = true) : hitsFrom s (left + 1) n = n :: hitsFrom s left (n + 1) :=
  List.filter_cons_of_pos h

theorem hitsFrom_of_miss (h : ¬s.hits n = true) : hitsFrom s (left + 1) n = hitsFrom s left (n + 1) :=
  List.filter_cons_of_neg h

/-! ### The selection loop by its branches (R244) -/

theorem evalLoop_of_full (line : Nat) (h : cap ≤ sec.length) : evalLoop s line cap left n sec = (sec, n) := by
  cases left with
  | zero => rfl
  | succ left => rw [evalLoop, if_neg (Nat.not_lt.mpr h)]

theorem evalLoop_of_hit (room : sec.length < cap) (h : s.hits n = true) :
    evalLoop s s.line.toNat cap (left + 1) n sec =
      evalLoop s s.line.toNat cap left (n + 1) (sec ++ [s.oamEntry n]) := by
  rw [evalLoop, if_pos room]
  exact if_pos h

theorem evalLoop_of_miss (room : sec.length < cap) (h : ¬s.hits n = true) :
    evalLoop s s.line.toNat cap (left + 1) n sec = evalLoop s s.line.toNat cap left (n + 1) sec := by
  rw [evalLoop, if_pos room]
  exact if_neg h

/-- With room for `room` more entries the loop takes the first `room` in range, the entries in range behind the index it
stops at are the rest, and when it took `room` of them it stops right behind the last. -/
theorem evalLoop_spec (room : Nat) (hcap : sec.length + room = cap) :
    (evalLoop s s.line.toNat cap left n sec).1 = sec ++ ((hitsFrom s left n).take room).map s.oamEntry ∧
    hitsFrom s (n + left - (evalLoop s s.line.toNat cap left n sec).2) (evalLoop s s.line.toNat cap left n sec).2 =
      (hitsFrom s left n).drop room ∧
    ∀ k e, room = k + 1 → (hitsFrom s left n)[k]? = some e →
      (evalLoop s s.line.toNat cap left n sec).2 = e + 1 := by
  induction left generalizing n sec room with
  | zero => simp [evalLoop]
  | succ left ih =>
    cases room with
    | zero => simp [evalLoop_of_full s.line.toNat hcap.ge]
    | succ room =>
      have hroom : sec.length < cap := by omega
      have hend : n + (left + 1) = n + 1 + left := by omega
      by_cases hit : s.hits n = true
      · obtain ⟨taken, rest, last⟩ := ih (n := n + 1) (sec := sec ++ [s.oamEntry n]) room (by simp; omega)
        rw [evalLoop_of_hit hroom hit, hitsFrom_of_hit hit, hend]
        refine ⟨by simp [taken], rest, fun k e hk he => ?_⟩
        cases k with
        | zero =>
          obtain rfl : room = 0 := by omega
          obtain rfl : n = e := Option.some.inj he
          rw [evalLoop_of_full _ (by simp; omega)]
        | succ k => exact last k e (Nat.succ.inj hk) he
      · rw [evalLoop_of_miss hroom hit, hitsFrom_of_miss hit, hend]
        exact ih (n := n + 1) (room + 1) hcap

/-! ### The overflow scans (R245) -/

theorem plainScan_iff : plainScan s s.line.toNat left n = true ↔ hitsFrom s left n ≠ [] := by
  induction left generalizing n with
  | zero => simp [plainScan]
  | succ left ih =>
    rw [plainScan, Bool.or_eq_true, ih]
    by_cases hit : s.hits n = true
    · simp [hitsFrom_of_hit hit, show inRange _ _ _ = true from hit]
    · rw [hitsFrom_of_miss hit]
      exact or_iff_right hit

/-- The diagonal scan looks at a byte of each entry that is left, the next one of the four every time. -/
theorem diagonalScan_iff {line m : Nat} (hm : m < 4) : diagonalScan s line left n m = true ↔
    ∃ j < left, inRange (spriteHeight s.ctrl) (s.oamByte (4 * (n + j) + (m + j) % 4)) line = true := by
  induction left generalizing n m with
  | zero => simp [diagonalScan]
  | succ left ih =>
    have first : 4 * (n + 0) + (m + 0) % 4 = 4 * n + m := by omega
    have next : ∀ j, ((m + 1) % 4 + j) % 4 = (m + (j + 1)) % 4 ∧ n + 1 + j = n + (j + 1) := by omega
    rw [diagonalScan, Bool.or_eq_true, ih (Nat.mod_lt _ (by decide)), Nat.exists_lt_succ_left, first]
    simp only [next]

/-! ### An evaluation (R244-R246) -/

theorem evaluate_fst (s : State) :
    (evaluate s).1 = ((entriesInRange s).take s.cfg.limit.cap).map s.oamEntry := by
  rw [entriesInRange_eq]
  exact (evalLoop_spec (s := s) (left := 64) (n := 0) (sec := []) s.cfg.limit.cap (Nat.zero_add _)).1

theorem evaluate_snd (s : State) : (evaluate s).2 =
    overflowSet s s.line.toNat (evaluate s).1 (evalLoop s s.line.toNat s.cfg.limit.cap 64 0 []).2 := rfl

theorem overflowSet_of_unlimited (line : Nat) (h : s.cfg.limit = .unlimited) : overflowSet s line sec n = false := by
  unfold overflowSet
  rw [h]

theorem overflowSet_of_eight (line : Nat) (h : s.cfg.limit = .eight) : overflowSet s line sec n =
    if sec.length < 8 then false
    else if s.cfg.overflowBug then diagonalScan s line (64 - n) n 0 else plainScan s line (64 - n) n := by
  unfold overflowSet
  rw [h]

section
variable (h : s.cfg.limit = .eight)
include h

theorem length_evaluate : (evaluate s).1.length = min 8 (entriesInRange s).length := by
  rw [evaluate_fst, h, List.length_map, List.length_take]; rfl

/-- With fewer than eight entries in range no overflow is looked for. -/
theorem overflow_of_room (few : (entriesInRange s)[7]? = none) : (evaluate s).2 = false := by
  have := List.getElem?_eq_none_iff.mp few
  rw [evaluate_snd, overflowSet_of_eight _ h, length_evaluate h]
  exact if_pos (by omega)

/-- With an eighth entry in range the scan that OVERFLOW_BUG selects runs over the entries behind it, of which those in
range are the ninth and later ones. -/
theorem overflow_of_eighth {eighth : Nat} (he : (entriesInRange s)[7]? = some eighth) :
    (evaluate s).2 =
      (if s.cfg.overflowBug then diagonalScan s s.line.toNat (64 - (eighth + 1)) (eighth + 1) 0
        else plainScan s s.line.toNat (64 - (eighth + 1)) (eighth + 1)) ∧
    hitsFrom s (64 - (eighth + 1)) (eighth + 1) = (entriesInRange s).drop 8 := by
  have eight : 7 < (entriesInRange s).length := (List.getElem?_eq_some_iff.mp he).1
  have cap : s.cfg.limit.cap = 8 := by rw [h]; rfl
  obtain ⟨-, rest, last⟩ := evalLoop_spec (s := s) (left := 64) (n := 0) (sec := []) 8 (Nat.zero_add 8)
  have stop := last 7 eighth rfl (entriesInRange_eq s ▸ he)
  rw [stop] at rest
  refine ⟨?_, entriesInRange_eq s ▸ rest⟩
  rw [evaluate_snd, overflowSet_of_eight _ h, length_evaluate h, if_neg (by omega), cap, stop]

theorem plain_overflow_iff (bug : s.cfg.overflowBug = false) :
    (evaluate s).2 = true ↔ 8 < (entriesInRange s).length := by
  cases he : (entriesInRange s)[7]? with
  | none =>
    have few := List.getElem?_eq_none_iff.mp he
    rw [overflow_of_room h he]
    exact iff_of_false Bool.false_ne_true (by omega)
  | some eighth =>
    obtain ⟨scan, rest⟩ := overflow_of_eighth h he
    rw [scan, bug, if_neg Bool.false_ne_true, plainScan_iff, rest, ne_eq, List.drop_eq_nil_iff, Nat.not_le]

theorem diagonal_overflow_iff (bug : s.cfg.overflowBug = true) :
    (evaluate s).2 = true ↔ ∃ eighth j, (entriesInRange s)[7]? = some eighth ∧ eighth + 1 + j < 64 ∧
      inRange (spriteHeight s.ctrl) (s.oamByte (4 * (eighth + 1 + j) + j % 4)) s.line.toNat = true := by
  cases he : (entriesInRange s)[7]? with
  | none =>
    rw [overflow_of_room h he]
    exact iff_of_false Bool.false_ne_true (by simp)
  | some eighth =>
    rw [(overflow_of_eighth h he).1, bug, if_pos rfl, diagonalScan_iff (by decide)]
    simp only [Nat.zero_add, Option.some.injEq, exists_and_left, exists_eq_left']
    exact exists_congr fun j => and_congr_left' (by omega)

end

theorem microEval_eq (s : State) : microEval s = { s with
    sec := ((entriesInRange s).take s.cfg.limit.cap).map s.oamEntry, ovf := s.ovf || (evaluate s).2 } := by
  rw [← evaluate_fst]; rfl

theorem ovf_microEval (s : State) : (microEval s).ovf = true ↔ s.ovf = true ∨ (evaluate s).2 = true :=
  Bool.or_eq_true .. |>.to_iff

end Sys2Proof.Machine
end

section
open Sys2Proof Sys2Proof.Machine

/-- Settles O54: the loop takes the first entries in range up to its room, which is the limit. -/
theorem evaluationSelectsTheFirstInRange : Obligations.EvaluationSelectsTheFirstInRange := by
  intro s
  have limit : (if s.cfg.limit = .eight then 8 else 64) = s.cfg.limit.cap := by cases s.cfg.limit <;> rfl
  refine ⟨(evaluate s).2, ?_⟩
  rw [limit]
  exact congrArg _ (microEval_eq s)

/-- Settles O55: the scan begins behind the eighth entry in range, and without one there is no scan. -/
theorem overflowScanSetsTheFlag : Obligations.OverflowScanSetsTheFlag := by
  intro s u h
  obtain rfl : microEval s = u := Host.Outcome.next.inj h
  refine ⟨fun limit => ?unlimited, fun limit bug => ?plain, fun limit bug => ?diagonal⟩
  case unlimited =>
    have overflow : (evaluate s).2 = false := overflowSet_of_unlimited _ limit
    exact (congrArg (s.ovf || ·) overflow).trans (Bool.or_false _)
  case plain => rw [ovf_microEval, plain_overflow_iff limit bug]
  case diagonal =>
    rw [ovf_microEval, diagonal_overflow_iff limit bug]
    simp only [inRange_iff, spriteHeight]

end

section
/-! The sprite slots: the pattern address of a slot in numbers, the slot an entry and its two bytes give, and the extra
slots filled one after another. -/

namespace Sys2Proof.Machine

/-! ### The entry of a slot (R249) -/

theorem slotEntry_eq (s : State) (k : Nat) : s.slotEntry k = if s.line.toNat < 240 then s.sec[k]? else none := by
  have visible : s.onVisibleLine = decide (s.line.toNat < 240) := by
    rw [State.onVisibleLine, Std.visibleLine]
    cases s.cfg.std <;> rfl
  rw [State.slotEntry, visible]
  simp only [decide_eq_true_eq]

theorem slot_eq (s : State) : s.slot = (s.dot.toNat - 257) / 8 := Nat.shiftRight_eq_div_pow _ 3

/-! ### The pattern address in numbers (R251) -/

theorem toNat_sprAddr8 (ctrl tile : Byte) {r : BitVec 9} (h : r.toNat < 8) :
    (sprAddr8 ctrl tile r).toNat = (if ctrl.getLsbD 3 then 0x1000 else 0) + 16 * tile.toNat + r.toNat := by
  have place : (r.setWidth 14).toNat = r.toNat := BitVec.toNat_setWidth_of_le (by decide)
  rw [sprAddr8, toNat_pattern _ _ (by omega), place]

theorem toNat_sprAddr16 (tile : Byte) {r : BitVec 9} (h : r.toNat < 16) :
    (sprAddr16 tile r).toNat =
      0x1000 * (tile.toNat % 2) + 16 * (tile.toNat / 2 * 2 + r.toNat / 8) + r.toNat % 8 := by
  have table : ((tile &&& 1).setWidth 14 <<< 12).toNat = 0x1000 * (tile.toNat % 2) := by
    rw [BitVec.toNat_shiftLeft, BitVec.toNat_setWidth, toNat_and_field (k := 0) (n := 1) rfl, Nat.shiftLeft_eq]
    omega
  have number : (((tile &&& 0xFE).setWidth 14 + (r >>> 3).setWidth 14) <<< 4).toNat =
      16 * (tile.toNat / 2 * 2 + r.toNat / 8) := by
    rw [BitVec.toNat_shiftLeft, BitVec.toNat_add, BitVec.toNat_setWidth, BitVec.toNat_setWidth,
      toNat_and_field (k := 1) (n := 7) rfl, BitVec.toNat_ushiftRight, Nat.shiftRight_eq_div_pow, Nat.shiftLeft_eq]
    omega
  have place : ((r &&& 7).setWidth 14).toNat = r.toNat % 8 := by
    rw [BitVec.toNat_setWidth, toNat_and_field (k := 0) (n := 3) rfl]
    omega
  have sum : ((tile &&& 1).setWidth 14 <<< 12 ||| ((tile &&& 0xFE).setWidth 14 + (r >>> 3).setWidth 14) <<< 4).toNat =
      0x1000 * (tile.toNat % 2) + 16 * (tile.toNat / 2 * 2 + r.toNat / 8) := by
    rw [toNat_or_eq_add 12 (by omega) (by omega), table, number]
  rw [sprAddr16, toNat_or_eq_add 4 (by omega) (by omega), sum, place]

/-- The row a slot fetches, in a sprite of `height` rows: the difference of the entry's Y, reversed by the vertical flip,
and row 0 in an empty slot. -/
def spriteRow (height : Nat) (e : Option SprEntry) (line : Nat) : Nat :=
  match e with
  | some f =>
    if f.attr.getLsbD 7 then height - 1 - (line + 512 - f.y.toNat) % height else (line + 512 - f.y.toNat) % height
  | none => 0

theorem spriteRow_lt {height : Nat} (h : 0 < height) (e : Option SprEntry) (line : Nat) :
    spriteRow height e line < height := by
  cases e with
  | none => exact h
  | some f =>
    have inside := Nat.mod_lt (line + 512 - f.y.toNat) h
    rw [spriteRow]
    split
    · omega
    · exact inside

/-- The model's row in bits is that row, in a sprite of `2 ^ n` rows whose last is `last`. -/
theorem toNat_flipRow (n : Nat) {last : BitVec 9} (hn : n ≤ 9) (hlast : last.toNat = 2 ^ n - 1) (f : SprEntry)
    (line : BitVec 9) : (flipRow (f.attr.getLsbD 7) last ((line - f.y.setWidth 9) &&& last)).toNat =
      spriteRow (2 ^ n) (some f) line.toNat := by
  have wide : (f.y.setWidth 9).toNat = f.y.toNat := BitVec.toNat_setWidth_of_le (by decide)
  have difference : (line - f.y.setWidth 9).toNat = (line.toNat + 512 - f.y.toNat) % 2 ^ 9 := by
    have small := f.y.isLt
    rw [BitVec.toNat_sub, wide]
    omega
  have row : ((line - f.y.setWidth 9) &&& last).toNat = (line.toNat + 512 - f.y.toNat) % 2 ^ n := by
    rw [BitVec.toNat_and, hlast, Nat.and_two_pow_sub_one_eq_mod, difference, Nat.mod_mod_of_dvd _ (pow_dvd_pow 2 hn)]
  rw [flipRow, spriteRow]
  split
  · rw [BitVec.toNat_sub_of_le (mask_le ..), row, hlast]
  · exact row

section
variable {ctrl : Byte} (e : Option SprEntry)

theorem sprAddr_of_tall (h : ctrl.getLsbD 5 = true) (line : BitVec 9) : ∃ r,
    sprAddr ctrl e line = sprAddr16 (e.getD emptyEntry).tile r ∧ r.toNat = spriteRow 16 e line.toNat := by
  cases e with
  | none => exact ⟨flipRow false 15 (0 &&& 15), if_pos h, rfl⟩
  | some f => exact ⟨_, if_pos h, toNat_flipRow 4 (by decide) rfl f line⟩

theorem sprAddr_of_short (h : ctrl.getLsbD 5 = false) (line : BitVec 9) : ∃ r,
    sprAddr ctrl e line = sprAddr8 ctrl (e.getD emptyEntry).tile r ∧ r.toNat = spriteRow 8 e line.toNat := by
  have short := Bool.eq_false_iff.mp h
  cases e with
  | none => exact ⟨flipRow false 7 (0 &&& 7), if_neg short, rfl⟩
  | some f => exact ⟨_, if_neg short, toNat_flipRow 3 (by decide) rfl f line⟩

theorem sprRowAddr_of_tall (h : ctrl.getLsbD 5 = true) (line : Nat) : sprRowAddr ctrl e line =
    0x1000 * ((e.getD emptyEntry).tile.toNat % 2) +
      16 * ((e.getD emptyEntry).tile.toNat / 2 * 2 + spriteRow 16 e line / 8) + spriteRow 16 e line % 8 := by
  unfold sprRowAddr
  rw [h]
  cases e <;> rfl

theorem sprRowAddr_of_short (h : ctrl.getLsbD 5 = false) (line : Nat) : sprRowAddr ctrl e line =
    (if ctrl.getLsbD 3 then 0x1000 else 0) + 16 * (e.getD emptyEntry).tile.toNat + spriteRow 8 e line := by
  unfold sprRowAddr
  rw [h]
  cases e <;> rfl

end

theorem toNat_sprAddr (ctrl : Byte) (e : Option SprEntry) (line : BitVec 9) :
    (sprAddr ctrl e line).toNat = sprRowAddr ctrl e line.toNat := by
  cases h : ctrl.getLsbD 5 with
  | true =>
    obtain ⟨r, address, row⟩ := sprAddr_of_tall e h line
    rw [address, toNat_sprAddr16 _ (row ▸ spriteRow_lt (by decide) e _), row, sprRowAddr_of_tall e h]
  | false =>
    obtain ⟨r, address, row⟩ := sprAddr_of_short e h line
    rw [address, toNat_sprAddr8 _ _ (row ▸ spriteRow_lt (by decide) e _), row, sprRowAddr_of_short e h]

/-- The low plane's row lies in the first eight bytes of its tile. -/
theorem sprRowAddr_low (ctrl : Byte) (e : Option SprEntry) (line : Nat) : sprRowAddr ctrl e line % 16 < 8 := by
  cases h : ctrl.getLsbD 5 with
  | true => rw [sprRowAddr_of_tall e h]; omega
  | false =>
    have row := spriteRow_lt (height := 8) (by decide) e line
    rw [sprRowAddr_of_short e h]
    split <;> omega

/-- The high plane is the second eight bytes of the tile (R252). -/
theorem toNat_sprAddr_high (ctrl : Byte) (e : Option SprEntry) (line : BitVec 9) :
    (sprAddr ctrl e line ||| 8).toNat = sprRowAddr ctrl e line.toNat + 8 := by
  have low := sprRowAddr_low ctrl e line.toNat
  have inside := sprAddr_lt ctrl e line
  rw [← toNat_sprAddr] at low ⊢
  have clear : sprAddr ctrl e line &&& 8 = 0#14 := by
    rw [← BitVec.toNat_inj, toNat_and_field (k := 3) (n := 1) rfl]
    simp; omega
  rw [← BitVec.add_eq_or_of_and_eq_zero _ _ clear, BitVec.toNat_add_of_lt (by simp; omega)]
  rfl

theorem sprAddr_eq_ofNat (ctrl : Byte) (e : Option SprEntry) (line : BitVec 9) :
    sprAddr ctrl e line = BitVec.ofNat 14 (sprRowAddr ctrl e line.toNat) := by
  rw [← toNat_sprAddr, BitVec.ofNat_toNat, BitVec.setWidth_eq]

theorem sprAddr_high_eq_ofNat (ctrl : Byte) (e : Option SprEntry) (line : BitVec 9) :
    sprAddr ctrl e line ||| 8 = BitVec.ofNat 14 (sprRowAddr ctrl e line.toNat + 8) := by
  rw [← toNat_sprAddr_high, BitVec.ofNat_toNat, BitVec.setWidth_eq]

/-! ### The slot an entry gives (R252) -/

theorem slotOf_some (f : SprEntry) (hi lo : Byte) : slotOf (some f) hi lo =
    some ⟨f.x, f.attr.getLsbD 5, f.idx == 0, f.attr.setWidth 2, sprPixels (f.attr.getLsbD 6) hi lo⟩ := rfl

theorem length_sprPixels (flip : Bool) (hi lo : Byte) : (sprPixels flip hi lo).length = 8 := by
  rw [sprPixels, List.length_map, List.length_range]

theorem getElem?_sprPixels (flip : Bool) (hi lo : Byte) : ∀ c < 8,
    (sprPixels flip hi lo)[c]? =
      some (BitVec.ofBool (hi.getLsbD (if flip then c else 7 - c)) ++
        BitVec.ofBool (lo.getLsbD (if flip then c else 7 - c))) := by
  intro c hc
  rw [sprPixels, List.getElem?_map, List.getElem?_range hc]
  rfl

/-! ### The extra slots (R253) -/

theorem ppuRead_of_plain {s : State} {a : BusAddr} (ha : a.toNat < 0x2000) (h : s.chr.plainAt a.toNat = true) :
    (ppuRead a s).1 = s.chr.byteAt a.toNat := by
  obtain ⟨hook, readable⟩ := Bool.and_eq_true .. |>.mp h
  rw [ppuRead_of_pattern ha, peekSub_of_readable (x := .chr) (Option.isNone_iff_eq_none.mp hook) readable]
  rfl

/-- `o` is the slot that entry `k`'s row gives, its two bytes being those of plain pages where they lie on such. -/
def FilledExtra (s : State) (k : Nat) (o : Option OutSlot) : Prop :=
  ∃ hi lo, o = slotOf (s.slotEntry k) hi lo ∧ ∀ f, s.slotEntry k = some f →
    let a := sprRowAddr s.ctrl (some f) s.line.toNat
    (s.chr.plainAt a = true → lo = s.chr.byteAt a) ∧ (s.chr.plainAt (a + 8) = true → hi = s.chr.byteAt (a + 8))

theorem fillExtra_fills (s : State) (k : Nat) :
    ∃ o n, fillExtra s k = { s with obuf := s.obuf.set k o, draws := n } ∧ FilledExtra s k o := by
  unfold fillExtra
  split
  next empty => exact ⟨none, s.draws, rfl, 0, 0, by rw [empty]; rfl, by simp [empty]⟩
  next f full =>
    obtain ⟨n, hn⟩ := ppuRead_snd (sprAddr s.ctrl (some f) s.line) s
    obtain ⟨m, hm⟩ := ppuRead_snd (sprAddr s.ctrl (some f) s.line ||| 8) { s with draws := n }
    have low := toNat_sprAddr s.ctrl (some f) s.line
    have high := toNat_sprAddr_high s.ctrl (some f) s.line
    have inside := sprAddr_lt s.ctrl (some f) s.line
    refine ⟨_, m, by dsimp only; rw [hn, hm], _, _, by rw [full], fun g hg => ?_⟩
    obtain rfl : f = g := Option.some.inj (full.symm.trans hg)
    dsimp only
    rw [← high, ← low]
    exact ⟨ppuRead_of_plain inside, ppuRead_of_plain (s := { s with draws := n }) (high_plane_lt inside)⟩

/-- Filling slots one after another fills each of them and leaves the others, whatever was drawn on the way. -/
theorem foldl_fillExtra_fills (ks : List Nat) (s : State) :
    ∃ ob n, ks.foldl fillExtra s = { s with obuf := ob, draws := n } ∧ ob.length = s.obuf.length ∧
      (∀ j, j ∉ ks → ob[j]? = s.obuf[j]?) ∧
      ∀ j ∈ ks, j < s.obuf.length → ∃ o, ob[j]? = some o ∧ FilledExtra s j o := by
  induction ks generalizing s with
  | nil => exact ⟨s.obuf, s.draws, rfl, rfl, fun _ _ => rfl, fun _ h => nomatch h⟩
  | cons k ks ih =>
    obtain ⟨o, n, first, filled⟩ := fillExtra_fills s k
    obtain ⟨ob, m, rest, length, kept, fills⟩ := ih { s with obuf := s.obuf.set k o, draws := n }
    refine ⟨ob, m, by rw [List.foldl_cons, first, rest], length.trans List.length_set, fun j hj => ?_,
      fun j hj hl => ?_⟩
    · obtain ⟨ne, out⟩ := List.ne_and_not_mem_of_not_mem_cons hj
      rw [kept j out, List.getElem?_set_ne ne.symm]
    · by_cases later : j ∈ ks
      · exact fills j later (by rw [List.length_set]; exact hl)
      · obtain rfl : j = k := (List.mem_cons.mp hj).resolve_right later
        exact ⟨o, by rw [kept j later, List.getElem?_set_self hl], filled⟩

theorem mem_extraSlots (k : Nat) : k ∈ (List.range 56).map (· + 8) ↔ 8 ≤ k ∧ k < 64 := by
  rw [List.mem_map]
  constructor
  · rintro ⟨j, hj, rfl⟩
    have := List.mem_range.mp hj
    omega
  · exact fun ⟨low, high⟩ => ⟨k - 8, List.mem_range.mpr (by omega), Nat.sub_add_cancel low⟩

theorem microSprExtra_fills (s : State) :
    ∃ ob n, microSprExtra s = { s with obuf := ob, draws := n } ∧ ob.length = s.obuf.length ∧
      (∀ k < 8, ob[k]? = s.obuf[k]?) ∧
      ∀ k, 8 ≤ k → k < 64 → k < s.obuf.length → ∃ o, ob[k]? = some o ∧ FilledExtra s k o := by
  obtain ⟨ob, n, h, length, kept, fills⟩ := foldl_fillExtra_fills ((List.range 56).map (· + 8)) s
  refine ⟨ob, n, h, length, fun k hk => kept k ?_, fun k low high => fills k ((mem_extraSlots k).mpr ⟨low, high⟩)⟩
  rw [mem_extraSlots]
  omega

end Sys2Proof.Machine
end

section
open Sys2Proof Sys2Proof.Machine

/-- Settles O56: each fetch is the model's own equation, its address is the row's, and the slot's pixels are the bytes'
bits. -/
theorem spriteSlotFetches : Obligations.SpriteSlotFetches := by
  intro s _ _
  dsimp only
  rw [← slot_eq, ← slotEntry_eq, ← sprAddr_eq_ofNat, ← sprAddr_high_eq_ofNat]
  refine ⟨?low, ?high⟩
  case low =>
    obtain ⟨n, h⟩ := microSprLo_eq s
    exact ⟨n, congrArg _ h⟩
  case high =>
    obtain ⟨n, h⟩ := microSprHi_eq s
    refine ⟨n, _, congrArg _ h, fun empty => by rw [empty]; rfl, fun f full => ?_⟩
    rw [full, slotOf_some]
    exact ⟨_, rfl, length_sprPixels .., getElem?_sprPixels _ _ _⟩

/-- Settles O57: each of the slots 8 to 63 is filled in its turn, and no other. -/
theorem extraSlotsAreFilledSilently : Obligations.ExtraSlotsAreFilledSilently := by
  intro s
  obtain ⟨ob, n, h, length, kept, fills⟩ := microSprExtra_fills s
  refine ⟨ob, n, congrArg Host.Outcome.next h, length, kept, fun k low high hk => ?_⟩
  obtain ⟨o, at_k, hi, lo, rfl, bytes⟩ := fills k low high hk
  dsimp only
  rw [at_k, ← slotEntry_eq]
  refine ⟨fun empty => by rw [empty]; rfl, fun f full => ?_⟩
  rw [full, slotOf_some]
  exact ⟨lo, hi, _, rfl, length_sprPixels .., getElem?_sprPixels _ _ _, bytes f full⟩

end

section
/-! Pixels: the sprite candidate by its conditions, what the compositing selects, and that an emitted pixel is one entry
of the bound buffer. -/

namespace Sys2Proof.Machine

variable {s : State} {c : Nat}

/-! ### The sprite candidate (R283) -/

/-- The first element at which `f` gives a value gives the search's. -/
theorem findSome?_eq_of_first {α β : Type} {f : α → Option β} {a : α} {b : β} (ha : f a = some b) :
    ∀ {l : List α} {k : Nat}, l[k]? = some a → (∀ j < k, ∀ q, l[j]? = some q → f q = none) → l.findSome? f = some b
  | x :: l, 0, at_k, _ => by
    obtain rfl : x = a := Option.some.inj at_k
    rw [List.findSome?_cons, ha]
  | x :: l, k + 1, at_k, before => by
    rw [List.findSome?_cons, before 0 k.succ_pos x rfl]
    exact findSome?_eq_of_first ha at_k fun j hj => before (j + 1) (Nat.succ_lt_succ hj)

theorem slotShows_iff {o : OutSlot} : slotShows (some o) c = true ↔
    (o.x.toNat ≤ c ∧ c < o.x.toNat + 8) ∧ o.px.getD (c - o.x.toNat) 0 ≠ 0 := by
  simp only [slotShows, Bool.and_eq_true, decide_eq_true_eq]

theorem slotPixel_of_shows {o : OutSlot} (h : slotShows (some o) c = true) :
    slotPixel c (some o) = some ⟨o.px.getD (c - o.x.toNat) 0, o.palg, o.behind, o.zero⟩ := by
  obtain ⟨inside, opaque_there⟩ := slotShows_iff.mp h
  rw [slotPixel, if_pos inside]
  exact if_neg opaque_there

theorem slotPixel_of_not_shows {o : Option OutSlot} (h : slotShows o c = false) : slotPixel c o = none := by
  match o with
  | none => rfl
  | some o =>
    rw [slotPixel]
    split
    next inside =>
      have transparent : ¬o.px.getD (c - o.x.toNat) 0 ≠ 0 := fun opaque_there =>
        ne_true_of_eq_false h (slotShows_iff.mpr ⟨inside, opaque_there⟩)
      exact if_pos (not_not.mp transparent)
    next => rfl

theorem sprPixel_of_shown (on : s.mask.getLsbD 4 = true) (col : 8 ≤ c ∨ s.mask.getLsbD 2 = true) :
    sprPixel c s = s.obuf.findSome? (slotPixel c) := by
  refine if_neg ?_
  rcases col with h | h <;> simp [on, h]

theorem sprPixel_of_not_shown (h : ¬(s.mask.getLsbD 4 = true ∧ (8 ≤ c ∨ s.mask.getLsbD 2 = true))) :
    sprPixel c s = none := by
  rcases not_and_or.mp h with off | clipped
  · rw [sprPixel, eq_false_of_ne_true off]
    rfl
  · obtain ⟨left, clip⟩ := not_or.mp clipped
    rw [sprPixel, eq_false_of_ne_true clip, decide_eq_true (Nat.not_le.mp left), Bool.not_false, Bool.and_self,
      Bool.or_true]
    rfl

theorem sprPixel_of_none_shows (h : ∀ o ∈ s.obuf, slotShows o c = false) : sprPixel c s = none := by
  have search : s.obuf.findSome? (slotPixel c) = none :=
    List.findSome?_eq_none_iff.mpr fun o ho => slotPixel_of_not_shows (h o ho)
  rw [sprPixel, search, ite_self]

/-! ### Compositing (R284, R285) -/

theorem composite_of_sprite {bg : Option (BitVec 4)} {p : SprPixel} (h : p.behind = false ∨ bg = none) :
    composite bg (some p) = (1 : BitVec 1) ++ p.palg ++ p.pv := by
  refine if_pos ?_
  rcases h with h | h <;> simp [h]

theorem composite_of_background {b : BitVec 4} {sp : Option SprPixel} (h : ∀ p, sp = some p → p.behind = true) :
    composite (some b) sp = b.setWidth 5 := by
  match sp with
  | none => rfl
  | some p => exact if_neg (by simp [h p rfl])

/-- A sprite's palette index lies in the palette's second half. -/
theorem toNat_sprite_index (palg pv : BitVec 2) :
    ((1 : BitVec 1) ++ palg ++ pv).toNat = 0x10 + 4 * palg.toNat + pv.toNat := by
  decide +revert

theorem zeroHit_eq (bg : Option (BitVec 4)) (sp : Option SprPixel) (c : Nat) :
    zeroHit bg sp c = (bg.isSome && sp.any (fun p => p.zero) && decide (c ≠ 255)) := by
  match sp with
  | none => rw [Option.any_none, Bool.and_false]; rfl
  | some p => rw [Option.any_some, Bool.and_comm bg.isSome]; rfl

/-! ### The output (R286, R287) -/

/-- Masking tells the palette's addresses, the last 256 of the bus, from the others. -/
theorem palette_mask (v : VAddr) : v &&& 0x3F00 = 0x3F00 ↔ 0x3F00 ≤ v.toNat % 0x4000 := by
  rw [← BitVec.toNat_inj, toNat_and_field (k := 8) (n := 6) rfl]
  simp only [BitVec.reduceToNat]
  omega

theorem offIndex_eq (v : VAddr) : offIndex v = if 0x3F00 ≤ v.toNat % 0x4000 then v.setWidth 5 else 0 := by
  simp only [offIndex, palette_mask]

theorem toNat_outIndex (s : State) (i : BitVec 5) :
    (outIndex s i).toNat = s.mask.toNat / 32 * 64 +
      (if s.mask.getLsbD 0 then s.palRead i &&& 0x30 else s.palRead i).toNat := by
  have emphasis : (s.mask.extractLsb' 5 3).toNat = s.mask.toNat / 32 := by
    rw [BitVec.extractLsb'_toNat, Nat.shiftRight_eq_div_pow]
    have := s.mask.isLt
    omega
  rw [outIndex, BitVec.toNat_append, ← Nat.shiftLeft_add_eq_or_of_lt (BitVec.isLt _), emphasis, Nat.shiftLeft_eq]

/-- Inside the frame an emitted pixel is written to its entry of the buffer where one is bound, and nothing else
changes. -/
theorem emitPixel_writes_entry (i : BitVec 5) (hline : s.line.toNat < 240) (hc : c < 256)
    (fits : targetFits s.out = true) :
    ∃ out, emitPixel c i s = { s with out } ∧
      ∀ k, out.read k = if s.outBound = true ∧ k = 256 * s.line.toNat + c then outIndex s i else s.out.read k := by
  have wf : s.out.wf = true := by
    simp only [targetFits, Bool.and_eq_true] at fits
    exact fits.1.2
  rcases emitPixel_eq c i s with ⟨bound, -, -, h⟩ | ⟨outside, h⟩
  · refine ⟨_, h, fun k => ?_⟩
    simp only [Store.read_write wf, bound, true_and, eq_comm (a := k), Nat.mul_comm 256]
  · have unbound : s.outBound = false := outside.resolve_right (by omega)
    exact ⟨s.out, h, fun k => (if_neg (by simp [unbound])).symm⟩

end Sys2Proof.Machine
end

section
open Sys2Proof Sys2Proof.Machine

/-- Settles O58: the index is the compositing's, case by case, and the one entry written is the emitted pixel's. -/
theorem pixelIsCompositedAndEmitted : Obligations.PixelIsCompositedAndEmitted := by
  intro s hline hfirst hlast fits c bg sp
  obtain ⟨out, emitted, entry⟩ := emitPixel_writes_entry (c := c) (s := { s with s0hit := s.s0hit || zeroHit bg sp c })
    (composite bg sp) hline (by omega) fits
  refine ⟨composite bg sp, outIndex s (composite bg sp), out, ?next, ?sprite, ?background, ?neither,
    toNat_outIndex s _, entry⟩
  case next =>
    rw [← zeroHit_eq]
    exact congrArg Host.Outcome.next emitted
  case sprite =>
    intro p hp shows
    rw [hp, composite_of_sprite shows, toNat_sprite_index]
  case background =>
    intro b hb behind
    rw [hb, composite_of_background behind, BitVec.toNat_setWidth_of_le (by decide)]
  case neither =>
    intro hb hp
    rw [hb, hp]
    rfl

/-- Settles O59: the pixel is `Emit` at the index that `v` selects. -/
theorem pixelWithRenderingOff : Obligations.PixelWithRenderingOff := by
  intro s hline hfirst hlast fits i o
  have hi : offIndex s.v = i := offIndex_eq s.v
  have ho : (outIndex s i).toNat = o := toNat_outIndex s i
  obtain ⟨out, emitted, entry⟩ := emitPixel_writes_entry (c := s.column) i hline (by rw [State.column]; omega) fits
  refine ⟨out, ?next, fun k => ?read⟩
  case next => exact congrArg Host.Outcome.next (by rw [microPixelOff, hi, emitted])
  case read =>
    rw [entry, apply_ite BitVec.toNat, ho]
    rfl

/-- Settles O60: the candidate is the search over the slots, and a slot gives a pixel where it shows one. -/
theorem firstOpaqueSpriteWins : Obligations.FirstOpaqueSpriteWins := by
  intro s c shown
  refine ⟨sprPixel_of_not_shown, sprPixel_of_none_shows, fun k o visible at_k shows before => ?_⟩
  obtain ⟨on, col⟩ := visible
  rw [sprPixel_of_shown on col]
  exact findSome?_eq_of_first (slotPixel_of_shows shows) at_k fun j hj q hq =>
    slotPixel_of_not_shows (before j hj q hq)

end

section
/-! The port accesses by their outcome: how an access ends, and what the register writes make of `t`, bit by bit. -/

namespace Sys2Proof.Machine

variable {s u : State}

theorem getLsbD_vBus (v : VAddr) {k : Nat} (h : k < 14) : (vBus v).getLsbD k = v.getLsbD k := by
  rw [vBus, BitVec.getLsbD_setWidth, decide_eq_true h, Bool.true_and]

/-! ### The end of an access (R372) -/

/-- An access that leaves `nmiLine` as it was ends with its reply alone. -/
theorem portDone_of_eq {after : State} (r : Reply) (h : after = u) (line : u.nmiLine = s.nmiLine) :
    portDone s r after = .next (answer r u) := by
  rw [h, portDone, nmiEdge_of_eq line]

/-- A read that leaves `nmiLine` as it was ends with its byte. -/
theorem readDone_of_eq {read : Byte × State} {b : Byte} (h : read = (b, u)) (line : u.nmiLine = s.nmiLine) :
    readDone s read = .next (answer (.byte b) u) := by
  rw [h]; exact portDone_of_eq _ rfl line

theorem unlessWarming_of_warm (f : State → State) (h : s.warmUp = 0) : unlessWarming f s = f s :=
  if_neg (by simp [State.warming, h])

/-! ### The writes into `t`, bit by bit (R125, R126, R306) -/

/-- Clearing the bits of a mask and filling them from a word that has no others. -/
theorem getLsbD_merge {w : Nat} {a b m : BitVec w} {P : Nat → Prop} [DecidablePred P]
    (hm : ∀ k < w, m.getLsbD k = decide (P k)) (hb : b &&& m = b) (k : Nat) :
    (a &&& ~~~m ||| b).getLsbD k = if P k then b.getLsbD k else a.getLsbD k := by
  rw [← hb, getLsbD_replace, hb]
  by_cases hk : k < w
  · simp only [hm k hk, decide_eq_true_eq]
  · simp only [BitVec.getLsbD_of_ge _ k (Nat.not_lt.mp hk), ite_self]

theorem getLsbD_placed (x : Byte) {i k : Nat} (h : i ≤ k) (hk : k < 15) :
    (x.setWidth 15 <<< i : VAddr).getLsbD k = x.getLsbD (k - i) := by
  simp [h, hk]

theorem getLsbD_placed_of_lt (x : Byte) {i k : Nat} (h : k < i) : (x.setWidth 15 <<< i : VAddr).getLsbD k = false := by
  simp [h]

theorem getLsbD_ctrlIntoT (t : VAddr) (d : Byte) (k : Nat) : (ctrlIntoT t d).getLsbD k =
    if k = 10 then d.getLsbD 0 else if k = 11 then d.getLsbD 1 else t.getLsbD k := by
  rw [ctrlIntoT, getLsbD_merge (P := fun k => k = 10 ∨ k = 11) (by decide) (by decide +revert)]
  by_cases low : k = 10
  · subst k; simp
  · by_cases high : k = 11
    · subst k; simp
    · simp only [low, high, or_self, if_false]

theorem getLsbD_scrollXIntoT (t : VAddr) (d : Byte) (k : Nat) : (scrollXIntoT t d).getLsbD k =
    if k < 5 then d.getLsbD (k + 3) else t.getLsbD k := by
  rw [scrollXIntoT, getLsbD_merge (P := fun k => k < 5) (by decide) (by decide +revert)]
  refine if_ctx_congr Iff.rfl (fun h => ?_) fun _ => rfl
  rw [BitVec.getLsbD_setWidth, decide_eq_true (by omega), Bool.true_and, BitVec.getLsbD_ushiftRight, Nat.add_comm]

theorem getLsbD_scrollYIntoT (t : VAddr) (d : Byte) (k : Nat) : (scrollYIntoT t d).getLsbD k =
    if 5 ≤ k ∧ k < 10 then d.getLsbD (k - 2) else if 12 ≤ k ∧ k < 15 then d.getLsbD (k - 12) else t.getLsbD k := by
  rw [scrollYIntoT, BitVec.or_assoc,
    getLsbD_merge (P := fun k => 5 ≤ k ∧ k < 10 ∨ 12 ≤ k ∧ k < 15) (by decide) (by decide +revert), BitVec.getLsbD_or]
  by_cases coarse : 5 ≤ k ∧ k < 10
  · have bit : 3 + (k - 5) = k - 2 := by omega
    rw [if_pos (.inl coarse), if_pos coarse, getLsbD_placed_of_lt _ (by omega), getLsbD_placed _ coarse.1 (by omega),
      BitVec.getLsbD_ushiftRight, Bool.false_or, bit]
  · by_cases fine : 12 ≤ k ∧ k < 15
    · have three : ∀ j < 3, (7 : Byte).getLsbD j = true := by decide
      rw [if_pos (.inr fine), if_neg coarse, if_pos fine, getLsbD_placed _ fine.1 fine.2,
        getLsbD_placed _ (by omega) fine.2, BitVec.getLsbD_and, three _ (by omega), Bool.and_true,
        BitVec.getLsbD_ushiftRight, BitVec.getLsbD_of_ge d (3 + (k - 5)) (by omega), Bool.or_false]
    · rw [if_neg (not_or.mpr ⟨coarse, fine⟩), if_neg coarse, if_neg fine]

theorem toNat_scrollFineX (d : Byte) : (scrollFineX d).toNat = d.toNat % 8 := BitVec.toNat_setWidth ..

theorem getLsbD_addrHighIntoT (t : VAddr) (d : Byte) (k : Nat) : (addrHighIntoT t d).getLsbD k =
    if k < 8 then t.getLsbD k else if k < 14 then d.getLsbD (k - 8) else false := by
  have kept : ((0x00FF : Nat) : VAddr) = ~~~0x7F00 := rfl
  rw [addrHighIntoT, kept, getLsbD_merge (P := fun k => 8 ≤ k ∧ k < 15) (by decide) (by decide +revert)]
  by_cases low : k < 8
  · rw [if_neg (by omega), if_pos low]
  · by_cases high : k < 14
    · have six : ∀ j < 6, (0x3F : Byte).getLsbD j = true := by decide
      rw [if_pos (by omega), if_neg low, if_pos high, getLsbD_placed _ (by omega) (by omega), BitVec.getLsbD_and,
        six _ (by omega), Bool.and_true]
    · rw [if_neg low, if_neg high]
      by_cases top : k = 14
      · subst k; simp
      · rw [if_neg (by omega), BitVec.getLsbD_of_ge t k (by omega)]

theorem getLsbD_addrLowIntoT (t : VAddr) (d : Byte) (k : Nat) : (addrLowIntoT t d).getLsbD k =
    if k < 8 then d.getLsbD k else t.getLsbD k := by
  have kept : (0x7F00 : VAddr) = ~~~0x00FF := rfl
  rw [addrLowIntoT, kept, getLsbD_merge (P := fun k => k < 8) (by decide) (by decide +revert)]
  refine if_ctx_congr Iff.rfl (fun h => ?_) fun _ => rfl
  rw [BitVec.getLsbD_setWidth, decide_eq_true (by omega), Bool.true_and]

end Sys2Proof.Machine
end

section
open Sys2Proof Sys2Proof.Machine

/-- Settles O32: the reads re-latch the latch, and neither write moves `nmiLine`. -/
theorem latchPortsReadBackTheLastByte : Obligations.LatchPortsReadBackTheLastByte := by
  intro s d
  refine ⟨fun i hi => ?reads, portDone_of_eq _ rfl rfl, portDone_of_eq _ rfl rfl⟩
  simp only [List.mem_cons, List.not_mem_nil, or_false] at hi
  rcases hi with rfl | rfl | rfl | rfl | rfl <;> exact readDone_of_eq (read := readLatch s) rfl rfl

/-- Settles O35: the write of port 0 raises `nmiLine` exactly when it sets bit 7 of `ctrl` in vblank. -/
theorem controlAndMaskWrites : Obligations.ControlAndMaskWrites := by
  intro s d warm
  refine ⟨⟨ctrlIntoT s.t d, ?ctrl, getLsbD_ctrlIntoT s.t d⟩, ?mask⟩
  case ctrl =>
    have write : writeCtrl d s = { s with latch := d, ctrl := d, t := ctrlIntoT s.t d } :=
      unlessWarming_of_warm _ warm
    have edge : (!s.nmiLine && (s.vbl && d.getLsbD 7)) = (s.vbl && d.getLsbD 7 && !s.ctrl.getLsbD 7) := by
      rw [State.nmiLine]
      cases s.vbl <;> simp [Bool.and_comm]
    rw [← edge]
    exact congrArg (portDone s .nothing) write
  case mask =>
    have write : writeMask d s = { s with latch := d, mask := d } := unlessWarming_of_warm _ warm
    exact portDone_of_eq _ write rfl

/-- Settles O37: the toggle selects the half. -/
theorem scrollWritesFillHalves : Obligations.ScrollWritesFillHalves := by
  intro s d warm
  have write : writeScroll d s = scrollWrite d (latchByte d s) := unlessWarming_of_warm _ warm
  refine ⟨fun first => ?first, fun second => ?second⟩
  case first =>
    refine ⟨scrollXIntoT s.t d, scrollFineX d, ?_, toNat_scrollFineX d, getLsbD_scrollXIntoT s.t d⟩
    have half : scrollWrite d (latchByte d s) =
        { s with latch := d, t := scrollXIntoT s.t d, x := scrollFineX d, w := true } :=
      if_neg (Bool.eq_false_iff.mp first)
    exact portDone_of_eq _ (write.trans half) rfl
  case second =>
    refine ⟨scrollYIntoT s.t d, ?_, getLsbD_scrollYIntoT s.t d⟩
    have half : scrollWrite d (latchByte d s) = { s with latch := d, t := scrollYIntoT s.t d, w := false } :=
      if_pos second
    exact portDone_of_eq _ (write.trans half) rfl

/-- Settles O38: the toggle selects the half, and outside rendering the second puts the address on the bus. -/
theorem addressWritesFillHalves : Obligations.AddressWritesFillHalves := by
  intro s d warm
  have write : writeAddr d s = addrWrite d (latchByte d s) := unlessWarming_of_warm _ warm
  refine ⟨fun first => ?first, fun second => ?second⟩
  case first =>
    have half : addrWrite d (latchByte d s) = { s with latch := d, t := addrHighIntoT s.t d, w := true } :=
      if_neg (Bool.eq_false_iff.mp first)
    exact ⟨_, portDone_of_eq _ (write.trans half) rfl, getLsbD_addrHighIntoT s.t d⟩
  case second =>
    have half : addrWrite d (latchByte d s) = addrSecond d (latchByte d s) := if_pos second
    refine ⟨addrLowIntoT s.t d, _, rfl, ?_, getLsbD_addrLowIntoT s.t d⟩
    rw [← getLsbD_vBus _ (show 12 < 14 by decide)]
    cases rendering : s.renderActive
    case true => exact portDone_of_eq _ (write.trans (half.trans (if_pos rendering))) rfl
    case false => exact portDone_of_eq _ (write.trans (half.trans (if_neg (Bool.eq_false_iff.mp rendering)))) rfl

end

section
/-! The status read by its parts: the vblank bit, the overflow bit, and that the evaluation still to come does not see
what the read writes. -/

namespace Sys2Proof.Machine

/-! ### What an evaluation depends on (R243-R245) -/

section
variable {s t : State} (ctrl : t.ctrl = s.ctrl) (oam : t.oam = s.oam)
include oam

theorem oamByte_congr (a : Nat) : t.oamByte a = s.oamByte a := by rw [State.oamByte, oam, State.oamByte]

include ctrl

theorem evalLoop_congr (line cap left n : Nat) (sec : List SprEntry) :
    evalLoop t line cap left n sec = evalLoop s line cap left n sec := by
  induction left generalizing n sec with
  | zero => rfl
  | succ left ih => simp only [evalLoop, State.oamEntry, ctrl, oamByte_congr oam, ih]

theorem diagonalScan_congr (line left n m : Nat) : diagonalScan t line left n m = diagonalScan s line left n m := by
  induction left generalizing n m with
  | zero => rfl
  | succ left ih => simp only [diagonalScan, ctrl, oamByte_congr oam, ih]

theorem plainScan_congr (line left n : Nat) : plainScan t line left n = plainScan s line left n := by
  induction left generalizing n with
  | zero => rfl
  | succ left ih => simp only [plainScan, ctrl, oamByte_congr oam, ih]

theorem evaluate_congr (line : t.line = s.line) (cfg : t.cfg = s.cfg) : evaluate t = evaluate s := by
  simp only [evaluate, overflowSet, evalLoop_congr ctrl oam, diagonalScan_congr ctrl oam, plainScan_congr ctrl oam,
    line, cfg]

end

/-! ### The two bits a status read may draw (R303, R304) -/

/-- In the race the bit reads 0 and the flag is suppressed; in the cancel slots a free bit may drop the request. -/
theorem vblBit_eq (s : State) : ∃ (keep : Bool) (n : Nat), vblBit s = (s.vbl && !atVblRace s, { s with
    vblSuppress := s.vblSuppress || atVblRace s, nmiReq := s.nmiReq && (keep || !inCancelSlots s), draws := n }) := by
  unfold vblBit
  split
  case isTrue race =>
    exact ⟨true, s.draws, by simp [race]⟩
  case isFalse race =>
    rw [Bool.not_eq_true] at race
    split
    case isTrue cancel => exact ⟨(drawBit s).1, s.draws + 1, by simp [race, cancel, drawBit]⟩
    case isFalse cancel => exact ⟨true, s.draws, by simp [race]⟩

/-- While the flag is still to be set a free bit may show it early. -/
theorem ovfBit_eq (s : State) : ∃ (early : Bool) (n : Nat),
    ovfBit s = (s.ovf || (pendingOvf s && early), { s with draws := n }) := by
  unfold ovfBit
  split
  case isTrue pending => exact ⟨(drawBit s).1, s.draws + 1, by rw [pending, Bool.true_and]; rfl⟩
  case isFalse pending => exact ⟨true, s.draws, by simp [pending]⟩

/-- The status read: its byte, and what it clears (R303, R304). -/
theorem readStatus_eq (s : State) : ∃ (keep early : Bool) (n : Nat) (r : Byte),
    r = statusByte (s.vbl && !atVblRace s) s.s0hit (s.ovf || (pendingOvf s && early)) s.latch ∧
    readStatus s = (r, { s with
      vbl := false, w := false, latch := r, draws := n, vblSuppress := s.vblSuppress || atVblRace s
      nmiReq := s.nmiReq && (keep || !inCancelSlots s) }) := by
  obtain ⟨keep, m, vblank⟩ := vblBit_eq s
  obtain ⟨early, n, overflow⟩ := ovfBit_eq (vblBit s).2
  have ahead : evaluate (vblBit s).2 = evaluate s := by
    rw [vblank]; exact evaluate_congr rfl rfl rfl rfl
  have pending : pendingOvf (vblBit s).2 = pendingOvf s := by
    rw [pendingOvf, ahead, vblank]; rfl
  refine ⟨keep, early, n, _, rfl, ?_⟩
  rw [pending, vblank] at overflow
  simp only [readStatus, vblank, overflow]
  rfl

/-! ### The status byte, bit by bit (R123) -/

theorem getLsbD_statusByte (vbl s0hit ovf : Bool) (latch : Byte) :
    (statusByte vbl s0hit ovf latch).getLsbD 6 = s0hit ∧ (statusByte vbl s0hit ovf latch).getLsbD 5 = ovf ∧
      ∀ k < 5, (statusByte vbl s0hit ovf latch).getLsbD k = latch.getLsbD k := by
  simp only [statusByte, BitVec.getLsbD_append]
  refine ⟨by simp, by simp, fun k hk => ?_⟩
  simp [hk]

/-- The evaluation that `pendingOvf` looks ahead to is the evaluation dot's (R303). -/
theorem pendingOvf_iff (s : State) : pendingOvf s = true ↔
    s.onVisibleLine = true ∧ s.renderOn = true ∧ 66 ≤ s.dot.toNat ∧ s.dot.toNat ≤ 256 ∧
      ∃ u, exec .dotEval { s with ovf := false } = .next u ∧ u.ovf = true := by
  have look : (∃ u, exec .dotEval { s with ovf := false } = .next u ∧ u.ovf = true) ↔ (evaluate s).2 = true := by
    have ahead : evaluate { s with ovf := false } = evaluate s := evaluate_congr rfl rfl rfl rfl
    have flag : (microEval { s with ovf := false }).ovf = (evaluate s).2 :=
      (Bool.false_or _).trans (congrArg Prod.snd ahead)
    rw [← flag]
    exact ⟨fun ⟨u, next, set⟩ => by cases next; exact set, fun set => ⟨_, rfl, set⟩⟩
  simp only [pendingOvf, Bool.and_eq_true, decide_eq_true_eq, and_assoc, look]

theorem inCancelSlots_iff (s : State) : inCancelSlots s = true ↔
    s.line.toNat = s.cfg.std.vblFirst ∧ 2 ≤ s.dot.toNat ∧ s.dot.toNat ≤ 3 := by
  simp only [inCancelSlots, Bool.and_eq_true, decide_eq_true_eq, and_assoc]
  rfl

end Sys2Proof.Machine
end

section
open Sys2Proof Sys2Proof.Machine

/-- Settles O33: the byte is the model's status byte, and the three conditions are the model's own by their bounds. -/
theorem statusReadClearsVblankAndToggle : Obligations.StatusReadClearsVblankAndToggle := by
  intro s
  obtain ⟨keep, early, n, r, byte, read⟩ := readStatus_eq s
  refine ⟨keep, early, n, r, ?_⟩
  intro race cancel pending
  have hrace : atVblRace s = decide race := Bool.eq_iff_iff.mpr (at_iff.trans decide_eq_true_iff.symm)
  have hcancel : inCancelSlots s = decide cancel :=
    Bool.eq_iff_iff.mpr ((inCancelSlots_iff s).trans decide_eq_true_iff.symm)
  have hpending : pendingOvf s = true ↔ pending := pendingOvf_iff s
  rw [hrace, hcancel] at read
  rw [hrace] at byte
  obtain ⟨bit6, bit5, low⟩ :=
    getLsbD_statusByte (s.vbl && !decide race) s.s0hit (s.ovf || (pendingOvf s && early)) s.latch
  have bit7 := statusByte_vbl (s.vbl && !decide race) s.s0hit (s.ovf || (pendingOvf s && early)) s.latch
  rw [← byte] at bit7 bit6 bit5 low
  refine ⟨?next, ?race, ?outside, bit6, ?settled, ?early, low⟩
  case next =>
    have line : (readStatus s).2.nmiLine = false := by rw [read]; exact nmiLine_of_vbl rfl
    change portDone s _ _ = _
    rw [portDone, nmiEdge_of_low line, read]
    rfl
  case race => intro h; rw [bit7, decide_eq_true h]; exact Bool.and_false _
  case outside => intro h; rw [bit7, decide_eq_false h]; exact Bool.and_true _
  case settled => intro h; rw [bit5, Bool.eq_false_iff.mpr (mt hpending.mp h)]; exact Bool.or_false _
  case early => intro h; rw [bit5, hpending.mpr h]; rfl

end

section
/-! Port 7 by its parts: the increment, what a read returns and refills, and the memory a write reaches. -/

namespace Sys2Proof.Machine

variable {s : State}

/-! ### The increment (R321) -/

theorem increment_of_rendering (h : s.renderActive = true) : increment s = { s with v := incY (incX s.v) } := if_pos h

/-- Where the increment outside rendering moves `v`: on by 1 or 32, wrapping at 15 bits. -/
def State.nextV (s : State) : VAddr := BitVec.ofNat 15 (s.v.toNat + if s.ctrl.getLsbD 2 then 32 else 1)

theorem nextV_eq (s : State) : s.nextV = s.v + if s.ctrl.getLsbD 2 then 32 else 1 := by
  rw [State.nextV, BitVec.ofNat_add, BitVec.ofNat_toNat, BitVec.setWidth_eq, apply_ite (BitVec.ofNat 15)]
  rfl

theorem nextV_congr {t : State} (v : t.v = s.v) (ctrl : t.ctrl = s.ctrl) : t.nextV = s.nextV := by
  rw [State.nextV, v, ctrl, State.nextV]

theorem increment_of_idle (h : s.renderActive = false) {v : VAddr} (hv : s.nextV = v) :
    increment s = emitBus (vBus v) { s with v } := by
  rw [← hv, nextV_eq]
  exact if_neg (Bool.eq_false_iff.mp h)

/-! ### The read (R302, R320, R323) -/

theorem toNat_paletteByte (latch : Byte) (c : Colour) :
    (paletteByte latch c).toNat = latch.toNat / 64 * 64 + c.toNat := by
  have top : (latch.extractLsb' 6 2).toNat = latch.toNat / 64 := by
    rw [BitVec.extractLsb'_toNat, Nat.shiftRight_eq_div_pow]
    have := latch.isLt
    omega
  rw [paletteByte, BitVec.toNat_append, ← Nat.shiftLeft_add_eq_or_of_lt c.isLt, top, Nat.shiftLeft_eq]

/-- Below a palette address lies the name table byte 0x1000 under it. -/
theorem under_palette {a : BusAddr} (h : 0x3F00 ≤ a.toNat) : a &&& 0x2FFF = a - 0x1000 := by
  have each : ∀ x : Byte, (0x3F00 + x.setWidth 14 : BusAddr) &&& 0x2FFF = 0x3F00 + x.setWidth 14 - 0x1000 := by decide
  have split : a = 0x3F00 + (a.setWidth 8).setWidth 14 := by bv_omega
  rw [split, each]

/-- A read after a bus event is the read before it, and moves nothing else but the draw counter (R85, R376). -/
theorem ppuRead_emitBus (a b : BusAddr) (s : State) :
    ∃ n, ppuRead a (emitBus b s) = ((ppuRead a s).1, { emitBus b s with draws := n }) := by
  obtain ⟨n, moved⟩ := ppuRead_snd a (emitBus b s)
  exact ⟨n, Prod.ext (ppuRead_emitBus_fst a b s) moved⟩

/-- The read with `v` on the bus and the buffer refilled with `b`. -/
def refilled (b : Byte) (n : Nat) (s : State) : State := { emitBus (vBus s.v) s with readBuf := b, draws := n }

theorem readDataIdle_of_memory (h : (vBus s.v).toNat < 0x3F00) :
    ∃ n, readDataIdle s = (s.readBuf, refilled (ppuRead (vBus s.v) s).1 n s) := by
  obtain ⟨n, read⟩ := ppuRead_emitBus (vBus s.v) (vBus s.v) s
  have memory : vBus s.v < 0x3F00 := h
  refine ⟨n, ?_⟩
  simp only [readDataIdle, memory, read, if_true]
  rfl

theorem readDataIdle_of_palette (h : 0x3F00 ≤ (vBus s.v).toNat) :
    ∃ n, readDataIdle s = (paletteByte s.latch (s.palRead ((vBus s.v).setWidth 5)),
      refilled (ppuRead (vBus s.v - 0x1000) s).1 n s) := by
  obtain ⟨n, read⟩ := ppuRead_emitBus (vBus s.v - 0x1000) (vBus s.v) s
  have palette : ¬vBus s.v < 0x3F00 := Nat.not_lt.mpr h
  refine ⟨n, ?_⟩
  simp only [readDataIdle, palette, under_palette h, read, if_false]
  rfl

/-- A read of port 7 outside rendering, by the byte it returns and the byte it refills the buffer with. -/
theorem exec_rdData_of_idle (h : s.renderActive = false) {r b : Byte} {n : Nat}
    (read : readDataIdle s = (r, refilled b n s)) : exec .rdData s = .next { s with
      latch := r, reply := .byte r, readBuf := b, v := s.nextV, lastBus := vBus s.nextV, draws := n
      trace := s.trace ++ [⟨s.clock, vBus s.v, !s.lastBus.getLsbD 12 && (vBus s.v).getLsbD 12⟩,
        ⟨s.clock, vBus s.nextV, !(vBus s.v).getLsbD 12 && (vBus s.nextV).getLsbD 12⟩] } := by
  have port : readData s = (r, increment { refilled b n s with latch := r }) := by
    rw [readData, if_neg (Bool.eq_false_iff.mp h), read]; rfl
  have idle : State.renderActive { refilled b n s with latch := r } = false := h
  have moved := increment_of_idle idle (nextV_congr (s := s) rfl rfl)
  rw [List.append_cons]
  refine (readDone_of_eq (port.trans (congrArg (Prod.mk r) moved)) rfl).trans ?_
  simp only [answer, emitBus, refilled]

/-- A read of port 7 during rendering returns the buffer and refills it with a free byte. -/
theorem exec_rdData_of_rendering (h : s.renderActive = true) : ∃ b n, exec .rdData s = .next { s with
    latch := s.readBuf, reply := .byte s.readBuf, readBuf := b, v := incY (incX s.v), draws := n } := by
  have port : readData s = (s.readBuf, increment (latched (readDataRendering s)).2) := by
    rw [readData, if_pos h]; rfl
  have moved := increment_of_rendering (s := (latched (readDataRendering s)).2) h
  exact ⟨(drawByte s).1, s.draws + 1, readDone_of_eq (port.trans (congrArg (Prod.mk s.readBuf) moved)) rfl⟩

/-! ### The write (R322, R323) -/

theorem exec_wrData_of_rendering (d : Byte) (h : s.renderActive = true) :
    exec (.wrData d) s = .next { s with latch := d, v := incY (incX s.v), reply := .nothing } := by
  have dropped : writeData d s = increment (latchByte d s) := congrArg increment (if_pos h)
  exact portDone_of_eq _ (dropped.trans (increment_of_rendering h)) rfl

/-- `c'` is `c` after a store of `d` at the byte an address resolves to, dropped where its source is not writable. -/
def Substrate.StoredAt (c c' : Substrate) (a : Nat) (d : Byte) : Prop :=
  c' = { c with srcs := c'.srcs } ∧ (∀ i, c'.source i = { c.source i with bytes := (c'.source i).bytes }) ∧
    ∀ i k, (c'.source i).bytes.read k =
      if (i, k) = (c.resolve a).2 ∧ (c.source i).writable = true then d else (c.source i).bytes.read k

theorem Substrate.pokeByte_storedAt {c : Substrate} (h : c.wf = true) (a : Nat) (d : Byte) :
    c.StoredAt (c.pokeByte a d) a d :=
  ⟨Substrate.pokeByte_pages c a d, (Substrate.pokeByte_sources c a d).2, Substrate.read_pokeByte h a d⟩

/-- A bus write stores one byte in the memory of its range (R82, R86). -/
theorem ppuWrite_stores (hchr : s.chr.wf = true) (hnmt : s.nmt.wf = true) (hpal : palWf s.pal = true) (a : BusAddr)
    (d : Byte) : ∃ (chr nmt : Substrate) (pal : Store 6), ppuWrite a d s = { s with chr, nmt, pal } ∧
      (a.toNat < 0x2000 → s.chr.StoredAt chr a.toNat d ∧ nmt = s.nmt ∧ pal = s.pal) ∧
      (0x2000 ≤ a.toNat → a.toNat < 0x3F00 → s.nmt.StoredAt nmt (a.toNat % 0x1000) d ∧ chr = s.chr ∧ pal = s.pal) ∧
      (0x3F00 ≤ a.toNat → chr = s.chr ∧ nmt = s.nmt ∧
        ∀ k, pal.read k = if k = (palIndex (a.setWidth 5)).toNat then d.setWidth 6 else s.pal.read k) := by
  rcases Nat.lt_or_ge a.toNat 0x2000 with pattern | above
  · exact ⟨_, _, _, ppuWrite_of_pattern d pattern,
      fun _ => ⟨Substrate.pokeByte_storedAt hchr _ d, rfl, rfl⟩, fun h => absurd pattern (Nat.not_lt.mpr h), by omega⟩
  rcases Nat.lt_or_ge a.toNat 0x3F00 with nametable | palette
  · exact ⟨_, _, _, ppuWrite_of_nametable d above nametable,
      fun h => absurd h (Nat.not_lt.mpr above), fun _ _ => ⟨Substrate.pokeByte_storedAt hnmt _ d, rfl, rfl⟩, by omega⟩
  · have wf : s.pal.wf = true := by simp only [palWf, Bool.and_eq_true] at hpal; exact hpal.1
    refine ⟨_, _, _, ppuWrite_of_palette d palette, by omega, by omega, fun _ => ⟨rfl, rfl, fun k => ?_⟩⟩
    simp only [Store.read_write wf, eq_comm (a := k)]

end Sys2Proof.Machine
end

section
open Sys2Proof Sys2Proof.Machine

/-- Settles O39: the read's byte and the buffer's by the range of `v`, and the two bus events of the read and of the
increment. -/
theorem dataReadIsOneReadBehind : Obligations.DataReadIsOneReadBehind := by
  intro s idle a v' a'
  rcases Nat.lt_or_ge a.toNat 0x3F00 with memory | palette
  · obtain ⟨n, read⟩ := readDataIdle_of_memory memory
    exact ⟨s.readBuf, _, n, exec_rdData_of_idle idle read, fun _ => ⟨rfl, rfl⟩,
      fun h => absurd memory (Nat.not_lt.mpr h)⟩
  · obtain ⟨n, read⟩ := readDataIdle_of_palette palette
    exact ⟨_, _, n, exec_rdData_of_idle idle read, fun h => absurd h (Nat.not_lt.mpr palette),
      fun _ => ⟨toNat_paletteByte .., rfl⟩⟩

/-- Settles O40: neither the read nor the write gets past the port, and the increment is the two micro-operations'. -/
theorem dataPortDuringRenderingReachesNoMemory : Obligations.DataPortDuringRenderingReachesNoMemory := by
  intro s d rendering
  exact ⟨incY (incX s.v), rfl, exec_wrData_of_rendering d rendering, exec_rdData_of_rendering rendering⟩

/-- Settles O41: the bus write stores one byte, between the bus event of `v` and that of the increment. -/
theorem dataWriteStoresOneByte : Obligations.DataWriteStoresOneByte := by
  intro s d idle hchr hnmt hpal a v' a' stored
  obtain ⟨chr, nmt, pal, write, pattern, nametable, palette⟩ :=
    ppuWrite_stores (s := emitBus a (latchByte d s)) hchr hnmt hpal a d
  rw [toNat_palIndex_setWidth] at palette
  refine ⟨chr, nmt, pal, ?_, pattern, nametable, palette⟩
  have port : writeData d s = increment { emitBus a (latchByte d s) with chr, nmt, pal } :=
    congrArg increment ((if_neg (Bool.eq_false_iff.mp idle)).trans write)
  have still : State.renderActive { emitBus a (latchByte d s) with chr, nmt, pal } = false := idle
  rw [List.append_cons]
  have moved := increment_of_idle still (nextV_congr (s := s) rfl rfl)
  refine (portDone_of_eq _ (port.trans moved) rfl).trans ?_
  simp only [answer, emitBus, latchByte]
  rfl

end

section
/-! OAM through its port and through DMA: what one byte of the copy does, and what `n` of them have done. -/

namespace Sys2Proof.Machine

variable {s t : State}

/-! ### Port 4 (R313, R314) -/

theorem writeOamData_of_rendering (d : Byte) (h : s.renderActive = true) :
    writeOamData d s = { s with latch := d, oamAddr := s.oamAddr + 4 } := if_pos h

theorem writeOamData_of_idle (d : Byte) (h : s.renderActive = false) : writeOamData d s = { s with
    latch := d, oam := s.oam.write s.oamAddr.toNat (oamMask s.oamAddr.toNat d), oamAddr := s.oamAddr + 1 } :=
  if_neg (Bool.eq_false_iff.mp h)

/-- How far a write of port 4 moves the OAM address. -/
def State.oamStride (s : State) : Nat := if s.renderActive then 4 else 1

theorem writeOamData_oamAddr (d : Byte) (s : State) :
    (writeOamData d s).oamAddr = s.oamAddr + BitVec.ofNat 8 s.oamStride := by
  unfold State.oamStride
  cases h : s.renderActive
  case false => rw [writeOamData_of_idle d h]; rfl
  case true => rw [writeOamData_of_rendering d h]; rfl

/-! ### A read by DMA leaves OAM alone (R330) -/

/-- `t` is `s` after a read by DMA: the latch, the flags a status read clears, `v`, the buffer, the bus and the draw
counter may have moved, and nothing else. -/
def DmaReadFrame (s t : State) : Prop :=
  t = { s with
    latch := t.latch, vbl := t.vbl, vblSuppress := t.vblSuppress, nmiReq := t.nmiReq, w := t.w, v := t.v
    readBuf := t.readBuf, lastBus := t.lastBus, trace := t.trace, draws := t.draws }

theorem readStatus_dmaFrame (s : State) : DmaReadFrame s (readStatus s).2 := by
  obtain ⟨_, _, _, _, -, h⟩ := readStatus_eq s
  rw [h]; rfl

theorem readOamData_dmaFrame (s : State) : DmaReadFrame s (readOamData s).2 := by
  unfold readOamData
  split <;> rfl

theorem DmaReadFrame.trans {u : State} (h : DmaReadFrame s t) (k : DmaReadFrame t u) : DmaReadFrame s u := by
  rw [DmaReadFrame, k, h]

theorem latched_dmaFrame {r : Byte × State} (h : DmaReadFrame s r.2) : DmaReadFrame s (latched r).2 := h.trans rfl

theorem increment_dmaFrame (s : State) : DmaReadFrame s (increment s) := by
  unfold increment
  split <;> rfl

theorem readDataIdle_dmaFrame (s : State) : DmaReadFrame s (readDataIdle s).2 := by
  rcases Nat.lt_or_ge (vBus s.v).toNat 0x3F00 with memory | palette
  · obtain ⟨n, read⟩ := readDataIdle_of_memory memory
    rw [read]; rfl
  · obtain ⟨n, read⟩ := readDataIdle_of_palette palette
    rw [read]; rfl

theorem readData_dmaFrame (s : State) : DmaReadFrame s (readData s).2 := by
  have byte : DmaReadFrame s (if s.renderActive then readDataRendering s else readDataIdle s).2 := by
    split
    · rfl
    · exact readDataIdle_dmaFrame s
  exact (latched_dmaFrame byte).trans (increment_dmaFrame _)

theorem portRead_dmaFrame (p : BitVec 3) (s : State) : DmaReadFrame s (portRead p s).2 := by
  unfold portRead
  split
  · exact readStatus_dmaFrame s
  · split
    · exact readOamData_dmaFrame s
    · split
      · exact readData_dmaFrame s
      · rfl

theorem dmaRead_frame (a : CpuAddr) (s : State) : DmaReadFrame s (dmaRead a s).2 := by
  unfold dmaRead
  split
  · exact portRead_dmaFrame ..
  · obtain ⟨n, h⟩ := cpuRead_snd a s
    rw [h]; rfl

/-! ### The copy, byte by byte (R330) -/

/-- `t` is `s` after `n` bytes of a copy: the reads have moved what reads move, the OAM address has moved `n` times, and
during rendering OAM stands. -/
structure DmaProgress (s t : State) (n : Nat) : Prop where
  frame : DmaReadFrame { s with oam := t.oam, oamAddr := t.oamAddr } t
  oamAddr : t.oamAddr = s.oamAddr + BitVec.ofNat 8 (n * s.oamStride)
  oam : s.renderActive = true → t.oam = s.oam

theorem DmaProgress.renderActive {n : Nat} (h : DmaProgress s t n) : t.renderActive = s.renderActive := by
  rw [h.frame]; rfl

theorem DmaProgress.cpu {n : Nat} (h : DmaProgress s t n) : t.cpu = s.cpu := by rw [h.frame]

theorem writeOamData_frame (d : Byte) (s : State) : writeOamData d s = { s with
    latch := d, oam := (writeOamData d s).oam, oamAddr := (writeOamData d s).oamAddr } := by
  cases h : s.renderActive
  case false => rw [writeOamData_of_idle d h]
  case true => rw [writeOamData_of_rendering d h]

theorem dmaByte_progress (page : Byte) {n : Nat} (h : DmaProgress s t n) (i : Nat) :
    DmaProgress s (dmaByte page t i) (n + 1) := by
  obtain ⟨b, u, read⟩ : ∃ b u, dmaRead (page ++ BitVec.ofNat 8 i) t = (b, u) := ⟨_, _, rfl⟩
  have moved : DmaReadFrame t u := by
    have frame := dmaRead_frame (page ++ BitVec.ofNat 8 i) t
    rwa [read] at frame
  have byte : dmaByte page t i = writeOamData b u := by rw [dmaByte, read]
  have active : u.renderActive = s.renderActive := by rw [← h.renderActive, moved]; rfl
  rw [byte]
  constructor
  case frame =>
    rw [DmaReadFrame, writeOamData_frame, moved, h.frame]
  case oamAddr =>
    have stride : u.oamStride = s.oamStride := by rw [State.oamStride, active, State.oamStride]
    have stood : u.oamAddr = t.oamAddr := by rw [moved]
    rw [writeOamData_oamAddr, stride, stood, h.oamAddr, Nat.succ_mul, BitVec.ofNat_add, BitVec.add_assoc]
  case oam =>
    intro rendering
    have stood : u.oam = t.oam := by rw [moved]
    rw [writeOamData_of_rendering b (active.trans rendering)]
    exact stood.trans (h.oam rendering)

/-- The first `n` bytes of a copy. Irreducible, so that no unification runs the copy. -/
@[irreducible] def dmaFirst (page : Byte) (n : Nat) (s : State) : State := (List.range n).foldl (dmaByte page) s

theorem dmaFirst_zero (page : Byte) (s : State) : dmaFirst page 0 s = s := by rw [dmaFirst]; rfl

theorem dmaFirst_succ (page : Byte) (n : Nat) (s : State) :
    dmaFirst page (n + 1) s = dmaByte page (dmaFirst page n s) n := by
  rw [dmaFirst, dmaFirst, List.range_succ, List.foldl_append]; rfl

theorem dmaFirst_progress (page : Byte) (n : Nat) (s : State) : DmaProgress s (dmaFirst page n s) n := by
  induction n with
  | zero => rw [dmaFirst_zero]; exact ⟨rfl, by simp, fun _ => rfl⟩
  | succ n ih => rw [dmaFirst_succ]; exact dmaByte_progress page ih n

/-- 256 moves of the OAM address bring it back (R330). -/
theorem dmaFirst_oamAddr (page : Byte) (s : State) : (dmaFirst page 256 s).oamAddr = s.oamAddr := by
  have back : BitVec.ofNat 8 (256 * s.oamStride) = 0 := by
    unfold State.oamStride
    split <;> rfl
  rw [(dmaFirst_progress page 256 s).oamAddr, back]
  exact BitVec.add_zero _

theorem exec_wrDma (page : Byte) (s : State) :
    exec (.wrDma page) s = .next (answer (.stall 513) (nmiEdge s (dmaFirst page 256 s))) := by
  rw [dmaFirst]; rfl

/-! ### A page of CPU memory (R83, R330) -/

theorem toNat_page_append (page x : Byte) : (page ++ x).toNat = page.toNat * 256 + x.toNat := by
  rw [BitVec.toNat_append, ← Nat.shiftLeft_add_eq_or_of_lt x.isLt, Nat.shiftLeft_eq]

/-- The window of ports 0 to 7 is a window of whole pages. -/
theorem inPortWindow_page (page x : Byte) : inPortWindow (page ++ x) = pageOfPorts page := by
  have window : (page ++ x) &&& (0xE000 : CpuAddr) = 0x2000 ↔ 0x20 ≤ page.toNat ∧ page.toNat ≤ 0x3F := by
    rw [← BitVec.toNat_inj, toNat_and_field (k := 13) (n := 3) rfl, toNat_page_append]
    simp only [BitVec.reduceToNat]
    have := x.isLt
    omega
  rw [inPortWindow, pageOfPorts, ← Bool.decide_and]
  exact decide_eq_decide.mpr window

section
variable {page : Byte} (memory : pageOfPorts page = false)
include memory

theorem dmaRead_of_memory (x : Byte) (s : State) : dmaRead (page ++ x) s = cpuRead (page ++ x) s :=
  if_neg (by rw [inPortWindow_page, memory]; exact Bool.false_ne_true)

/-- From CPU memory the copy moves the latch, OAM, its address and the draw counter alone. -/
theorem dmaFirst_of_memory (n : Nat) (s : State) : dmaFirst page n s = { s with
    latch := (dmaFirst page n s).latch, oam := (dmaFirst page n s).oam, oamAddr := (dmaFirst page n s).oamAddr
    draws := (dmaFirst page n s).draws } := by
  induction n with
  | zero => rw [dmaFirst_zero]
  | succ n ih =>
    obtain ⟨m, read⟩ := cpuRead_snd (page ++ BitVec.ofNat 8 n) (dmaFirst page n s)
    rw [dmaFirst_succ, dmaByte, dmaRead_of_memory memory]
    dsimp only
    rw [writeOamData_frame, read, ih]

/-- The byte the copy reads from CPU memory where its contents are known. -/
theorem dmaByte_of_known {i : Nat} {b : Byte} (hi : i < 256)
    (known : Cells.get s.cpu (page.toNat * 256 + i) = some b) : dmaByte page s i = writeOamData b s := by
  have address : (page ++ BitVec.ofNat 8 i).toNat = page.toNat * 256 + i := by
    rw [toNat_page_append, BitVec.toNat_ofNat, Nat.mod_eq_of_lt hi]
  have read : cpuRead (page ++ BitVec.ofNat 8 i) s = (b, s) := by rw [cpuRead, address, known]
  rw [dmaByte, dmaRead_of_memory memory, read]

/-- Outside rendering the bytes copied stand in OAM from the OAM address on, wrapping at 256. -/
theorem dmaFirst_oamByte {f : Nat → Byte} (known : ∀ i < 256, Cells.get s.cpu (page.toNat * 256 + i) = some (f i))
    (idle : s.renderActive = false) (wf : oamWf s.oam = true) {n : Nat} (hn : n ≤ 256) :
    oamWf (dmaFirst page n s).oam = true ∧ ∀ i < n, (dmaFirst page n s).oamByte ((s.oamAddr.toNat + i) % 256) =
      oamMask ((s.oamAddr.toNat + i) % 256) (f i) := by
  induction n with
  | zero => exact ⟨by rw [dmaFirst_zero]; exact wf, fun i hi => absurd hi (Nat.not_lt_zero i)⟩
  | succ n ih =>
    obtain ⟨formed, stored⟩ := ih (by omega)
    have progress := dmaFirst_progress page n s
    rw [dmaFirst_succ, dmaByte_of_known memory hn (progress.cpu ▸ known n hn),
      writeOamData_of_idle _ (progress.renderActive.trans idle)]
    have place : (dmaFirst page n s).oamAddr.toNat = (s.oamAddr.toNat + n) % 256 := by
      have stride : s.oamStride = 1 := if_neg (Bool.eq_false_iff.mp idle)
      rw [progress.oamAddr, stride, Nat.mul_one, BitVec.toNat_add, BitVec.toNat_ofNat, Nat.add_mod_mod]
    refine ⟨oam_write_wf formed (BitVec.isLt _) _, fun i hi => ?_⟩
    refine (oamByte_write formed _ _ _).trans ?_
    rw [place]
    by_cases last : i = n
    · subst i; rw [if_pos rfl]
    · rw [if_neg (by omega)]
      exact stored i (by omega)

end

end Sys2Proof.Machine
end

section
open Sys2Proof Sys2Proof.Machine

/-- Settles O36: a store is seen at its own address alone, and the address moves by the write's own step. -/
theorem oamDataPort : Obligations.OamDataPort := by
  intro s d wf
  refine ⟨?write, fun idle => ?read, fun rendering => ?free⟩
  case write =>
    cases h : s.renderActive
    case true =>
      refine ⟨s.oam, s.oamAddr + 4, portDone_of_eq _ (writeOamData_of_rendering d h) rfl, BitVec.toNat_add ..,
        fun a => (if_neg ?_).symm⟩
      exact fun h => Bool.noConfusion h.1
    case false =>
      refine ⟨_, s.oamAddr + 1, portDone_of_eq _ (writeOamData_of_idle d h) rfl, BitVec.toNat_add .., fun a => ?_⟩
      rw [oamByte_write wf]
      by_cases here : s.oamAddr.toNat = a
      · rw [if_pos here, if_pos ⟨rfl, here.symm⟩, oamMask, here]
      · rw [if_neg here, if_neg fun h => here h.2.symm]
  case read =>
    have port : readOamData s = latched (s.oamByte s.oamAddr.toNat, s) :=
      congrArg latched (if_neg (Bool.eq_false_iff.mp idle))
    exact readDone_of_eq port rfl
  case free =>
    have port : readOamData s = latched (drawByte s) := congrArg latched (if_pos rendering)
    exact ⟨(drawByte s).1, s.draws + 1, readDone_of_eq port rfl⟩

/-- Settles O42: the copy is 256 reads and writes of port 4, which bring the OAM address back; from CPU memory each
known byte stands where it was stored, since no two of the 256 addresses are the same. -/
theorem dmaCopiesAPageIntoOam : Obligations.DmaCopiesAPageIntoOam := by
  intro s page wf
  refine ⟨_, exec_wrDma page s, rfl, dmaFirst_oamAddr page s, (dmaFirst_progress page 256 s).oam, ?frame,
    fun memory => ⟨?kept, fun f known => ⟨?latch, fun idle i hi => ?byte⟩⟩⟩
  case frame =>
    have frame := (dmaFirst_progress page 256 s).frame
    rw [dmaFirst_oamAddr] at frame
    generalize dmaFirst page 256 s = u at frame
    rw [frame]
    rfl
  case kept =>
    have frame := dmaFirst_of_memory memory 256 s
    rw [dmaFirst_oamAddr] at frame
    generalize dmaFirst page 256 s = u at frame
    have line : u.nmiLine = s.nmiLine := by rw [frame]; rfl
    rw [nmiEdge_of_eq line, frame]
    rfl
  case latch =>
    have cpu := (dmaFirst_progress page 255 s).cpu
    have latch : (dmaFirst page 256 s).latch = f 255 := by
      rw [dmaFirst_succ, dmaByte_of_known memory (by decide) (cpu ▸ known 255 (by decide)), writeOamData_frame]
    exact latch
  case byte => exact (dmaFirst_oamByte memory known idle wf (Nat.le_refl 256)).2 i hi

end

section
/-! An update as its dots (R342). -/

namespace Sys2Proof.Machine

/-- Dots by fuel are some number of dots, each of which starts by `time`; enough fuel runs all of them. -/
theorem runUntil_eq_runDots (fuel time : Nat) (s : State) :
    ∃ n, runUntil fuel time s = runDots n s ∧ (∀ m < n, (runDots m s).clock ≤ time) ∧
      (time + 1 - s.clock ≤ fuel → time < (runDots n s).clock) := by
  induction fuel generalizing s with
  | zero => exact ⟨0, rfl, fun m hm => absurd hm (Nat.not_lt_zero m), fun h => by rw [runDots]; omega⟩
  | succ fuel ih =>
    by_cases due : s.clock ≤ time
    · obtain ⟨n, same, starts, ends⟩ := ih (dotStep s)
      have rises := clock_lt_dotStep s
      refine ⟨n + 1, (runUntil_of_le due fuel).trans same, fun m hm => ?_, fun h => ends (by omega)⟩
      cases m with
      | zero => exact due
      | succ m => exact starts m (Nat.lt_of_succ_lt_succ hm)
    · exact ⟨0, if_neg due, fun m hm => absurd hm (Nat.not_lt_zero m), fun _ => Nat.lt_of_not_le due⟩

end Sys2Proof.Machine
end

section
/-! Construction with the block's geometry and its refusal (R344, R90), and what a snapshot's chunks state of themselves
(R352). -/

namespace Sys2Proof.Machine

/-- What the block's construction resets at its end: HORIZONTAL mirroring binds the quadrants to CIRAM's banks
(R344, R158). -/
def blockInstance (cfg : Setup) (s : State) : State :=
  let raw := rawInstance cfg chrGeometry nmtGeometry s
  { raw with nmt := { raw.nmt with pt := [⟨0, 0⟩, ⟨0, 0⟩, ⟨0, 1024⟩, ⟨0, 1024⟩] }, mirror := .horizontal }

theorem setMirror_rawInstance (cfg : Setup) (s : State) :
    setMirror .horizontal (rawInstance cfg chrGeometry nmtGeometry s) = .ok (blockInstance cfg s) := by
  have wf : (rawInstance cfg chrGeometry nmtGeometry s).nmt.wf = true := by
    change (buildSubstrate nmtGeometry [ciramSource, placeholderSource]).wf = true
    decide
  obtain ⟨ok, swapped⟩ := Substrate.swap_nametables wf rfl rfl (banks := [0, 0, 1, 1]) rfl
  have bound : swapBank .nmt 1024 0 0 [0, 0, 1, 1] (rawInstance cfg chrGeometry nmtGeometry s) =
      .ok ((rawInstance cfg chrGeometry nmtGeometry s).setSub .nmt (blockInstance cfg s).nmt) :=
    (swapBank_of_ok (x := .nmt) ok).trans (congrArg (fun c => Except.ok (State.setSub _ .nmt c)) swapped)
  rw [setMirror, Mirror.banks]
  dsimp only
  rw [bound]
  rfl

theorem exec_construct_block (cfg : Setup) (s : State) :
    exec (.construct cfg chrGeometry nmtGeometry) s = exec (.reset true 0) (blockInstance cfg s) := by
  change execConstruct cfg chrGeometry nmtGeometry s = _
  have allowed : (Geometry.ok chrGeometry && Geometry.ok nmtGeometry) = true := by decide
  rw [execConstruct, construct, if_pos allowed, setMirror_rawInstance]
  rfl

theorem Geometry.ok_iff {g : Geometry} :
    Geometry.ok g = true ↔ (∃ k, g.space = 2 ^ k) ∧ (∃ k, g.page = 2 ^ k) ∧ g.space % g.page = 0 := by
  simp only [Geometry.ok, Bool.and_eq_true, decide_eq_true_eq, isPow2_iff, and_assoc]

theorem exec_construct_of_not_ok {chr nmt : Geometry} (h : ¬(Geometry.ok chr = true ∧ Geometry.ok nmt = true))
    (cfg : Setup) (s : State) : exec (.construct cfg chr nmt) s = .next (refuse .badGeometry s) := by
  change execConstruct cfg chr nmt s = _
  rw [execConstruct, construct, if_neg (by rwa [Bool.and_eq_true])]

theorem snapshotChunks_len (s : State) : ∀ c ∈ snapshotChunks s, c.len = c.bytes.length := by
  simp [snapshotChunks, chunkOf]

end Sys2Proof.Machine
end

section
open Sys2Proof Sys2Proof.Machine

/-- Settles O20: the dots by fuel, with the fuel `Update` has. -/
theorem updateRunsEveryDotThatStartsInTime : Obligations.UpdateRunsEveryDotThatStartsInTime := by
  intro time s
  obtain ⟨n, same, starts, ends⟩ := runUntil_eq_runDots (time + 1 - s.clock) time s
  refine ⟨n, ?_, ends (Nat.le_refl _), starts⟩
  rw [exec_update, updateTo, same]

/-- Settles O44: what is reset is the model's raw build with the four quadrants bound. -/
theorem constructBuildsAnInstance : Obligations.ConstructBuildsAnInstance := by
  refine ⟨fun cfg s => ?built, fun cfg chr nmt s => ?refused⟩
  case built =>
    refine ⟨blockInstance cfg s, _, exec_construct_block cfg s, rfl, rfl, rfl, rfl, rfl, rfl, rfl, rfl, rfl, rfl, rfl,
      rfl, rfl, rfl, ?placeholders, rfl, rfl, rfl⟩
    simp only [List.forall_mem_cons]
    exact ⟨⟨rfl, rfl, rfl⟩, ⟨rfl, rfl, rfl⟩, ⟨rfl, rfl, rfl⟩, nofun⟩
  case refused =>
    intro allowed h
    exact exec_construct_of_not_ok (by rwa [Geometry.ok_iff, Geometry.ok_iff]) cfg s

/-- Settles O45: the calls are the model's updates, and each chunk of a snapshot states its byte count. -/
theorem frameOutputAndHandshake : Obligations.FrameOutputAndHandshake :=
  fun s _ => ⟨rfl, rfl, rfl, snapshotChunks s, rfl, rfl, snapshotChunks_len s⟩

end

section
/-! What the decoders read back, field by field and record by record (R352, R355). -/

namespace Sys2Proof.Machine

/-! ### Fields -/

@[simp] theorem decBool_encBool (b : Bool) (rest : List Byte) : decBool (encBool b ++ rest) = some (b, rest) := by
  cases b <;> rfl

@[simp] theorem dec8_enc8 {w : Nat} (h : w ≤ 8) (v : BitVec w) (rest : List Byte) :
    dec8 w (enc8 v ++ rest) = some (v, rest) := by
  change some ((v.setWidth 8).setWidth w, rest) = _
  rw [BitVec.setWidth_setWidth_of_le v h, BitVec.setWidth_eq]

/-- The two bytes of a 16-bit value give it back (R355). -/
theorem high_append_low (v : BitVec 16) : ((v >>> 8).setWidth 8 ++ v.setWidth 8 : BitVec 16) = v := by
  ext i hi
  simp only [BitVec.getElem_append, BitVec.getElem_setWidth, BitVec.getLsbD_ushiftRight]
  split
  · rw [BitVec.getLsbD_eq_getElem]
  · rw [show 8 + (i - 8) = i by omega, BitVec.getLsbD_eq_getElem]

@[simp] theorem dec16_enc16 {w : Nat} (h : w ≤ 16) (v : BitVec w) (rest : List Byte) :
    dec16 w (enc16 v ++ rest) = some (v, rest) := by
  have value := high_append_low (v.setWidth 16)
  rw [BitVec.setWidth_setWidth_of_le v (by decide)] at value
  change some ((((v.setWidth 16 >>> 8).setWidth 8 ++ v.setWidth 8 : BitVec 16)).setWidth w, rest) = _
  rw [value, BitVec.setWidth_setWidth_of_le v h, BitVec.setWidth_eq]

theorem decNat_natGroups {fuel n : Nat} (h : n ≤ fuel) (rest : List Byte) :
    decNat (natGroups fuel n ++ rest) = some (n, rest) := by
  induction fuel generalizing n with
  | zero => rw [Nat.le_zero.mp h]; rfl
  | succ fuel ih =>
    rw [natGroups]
    split
    · rename_i small
      have byte : (BitVec.ofNat 8 n).toNat = n := by rw [BitVec.toNat_ofNat]; omega
      rw [List.singleton_append, decNat, byte, if_pos small]
    · have byte : (BitVec.ofNat 8 (n % 128 + 128)).toNat = n % 128 + 128 := by rw [BitVec.toNat_ofNat]; omega
      rw [List.cons_append, decNat, byte, if_neg (by omega), ih (by omega)]
      simp only [Nat.add_sub_cancel, Nat.mod_add_div]

@[simp] theorem decNat_encNat (n : Nat) (rest : List Byte) : decNat (encNat n ++ rest) = some (n, rest) :=
  decNat_natGroups (Nat.le_refl n) rest

/-! ### Sequences -/

section
variable {α β : Type}

/-- A decoder reads the bytes as a value, whatever follows them. -/
abbrev Decodes (d : Dec α) (bytes : List Byte) (a : α) : Prop := ∀ rest, d (bytes ++ rest) = some (a, rest)

/-- Reading past a sequence that decodes goes on behind it. -/
theorem decTimes_flatMap {f : Dec α} {enc : α → List Byte} {l : List α} (h : ∀ a ∈ l, Decodes f (enc a) a) (n : Nat)
    (rest : List Byte) :
    decTimes (l.length + n) f (l.flatMap enc ++ rest) = (decTimes n f rest).map fun p => (l ++ p.1, p.2) := by
  induction l with
  | nil => simp
  | cons a l ih =>
    obtain ⟨ha, hl⟩ := List.forall_mem_cons.mp h
    rw [List.length_cons, Nat.succ_add, decTimes, List.flatMap_cons, List.append_assoc, ha]
    simp only [Option.bind_eq_bind, Option.bind_some, ih hl]
    cases decTimes n f rest <;> rfl

theorem decTimes_decodes {f : Dec α} {enc : α → List Byte} {l : List α} (h : ∀ a ∈ l, Decodes f (enc a) a) :
    Decodes (decTimes l.length f) (l.flatMap enc) l := by
  intro rest
  have past := decTimes_flatMap h 0 rest
  rw [Nat.add_zero] at past
  rw [past, decTimes, Option.map_some, List.append_nil]

/-- A sequence fails at its first value that cannot be read. -/
theorem decTimes_fails {f : Dec α} {enc : α → List Byte} {l : List α} (h : ∀ a ∈ l, Decodes f (enc a) a) {n : Nat}
    (hn : l.length < n) {rest : List Byte} (hf : f rest = none) : decTimes n f (l.flatMap enc ++ rest) = none := by
  obtain ⟨k, rfl⟩ := Nat.exists_eq_add_of_lt hn
  rw [Nat.add_assoc, decTimes_flatMap h, decTimes, hf]
  rfl

/-- One decoder for each pair of two lists, which reads what the first of the pair was written as. -/
theorem decAll_zip {d : α → β → Dec β} {enc : α → List Byte} {f : α → β → β} {l : List α} {m : List β}
    (hlen : l.length = m.length) (h : ∀ a ∈ l, ∀ b, Decodes (d a b) (enc a) (f a b)) :
    Decodes (decAll ((l.zip m).map fun p => d p.1 p.2)) (l.flatMap enc) ((l.zip m).map fun p => f p.1 p.2) := by
  induction l generalizing m with
  | nil => exact fun rest => rfl
  | cons a l ih =>
    obtain ⟨b, m, rfl⟩ := List.exists_cons_of_length_eq_add_one hlen.symm
    obtain ⟨ha, hl⟩ := List.forall_mem_cons.mp h
    intro rest
    rw [List.zip_cons_cons, List.map_cons, decAll, List.flatMap_cons, List.append_assoc, ha]
    simp only [Option.bind_eq_bind, Option.bind_some, ih (Nat.succ.inj hlen) hl]
    rfl

end

/-- Whole bytes are their own encoding. -/
theorem decTimes_bytes (l : List Byte) : Decodes (decTimes l.length (dec8 8)) l l := by
  have bytes : l.flatMap enc8 = l := by
    have one : (enc8 : Byte → List Byte) = fun b => [b] := funext fun b => congrArg ([·]) (BitVec.setWidth_eq b)
    rw [one, List.flatMap_singleton']
  have read := decTimes_decodes (l := l) fun b _ => dec8_enc8 (w := 8) (by decide) b
  rwa [bytes] at read

/-- A memory's bytes read back from the store made of them. -/
theorem Store.read_ofBytes_toBytes {w : Nat} (m : Store w) {n k : Nat} (h : k < n) :
    (Store.ofBytes (m.toBytes n)).read k = m.read k := by
  rw [Store.read_ofBytes, Store.getElem?_toBytes h, Option.getD_some]

/-! ### Records -/

theorem decEntry_encEntry (e : SprEntry) : Decodes decEntry (encEntry e) e := by
  intro rest
  simp [decEntry, encEntry]

theorem decSec_encSec {cap : Nat} {sec : List SprEntry} (h : sec.length ≤ cap) :
    Decodes (decSec cap) (encSec sec) sec := by
  intro rest
  simp [decSec, encSec, h, decTimes_decodes fun e _ => decEntry_encEntry e]

theorem decSlot_encSlot {o : Option OutSlot} (h : slotWf o = true) : Decodes decSlot (encSlot o) o := by
  intro rest
  cases o with
  | none => simp [decSlot, encSlot]
  | some o =>
    have pixels := decTimes_decodes (l := o.px) fun p _ => dec8_enc8 (w := 2) (by decide) p
    rw [of_decide_eq_true h] at pixels
    simp [decSlot, encSlot, pixels]

theorem decPage_encPage {nsrc : Nat} {p : PageEntry × Option Nat} (h : p.1.src < nsrc) :
    Decodes (decPage nsrc) (encPage p) p := by
  intro rest
  obtain ⟨e, hook⟩ := p
  cases hook <;> simp [decPage, encPage, Nat.not_le.mpr h]

theorem decPage_missing_source {nsrc : Nat} {p : PageEntry × Option Nat} (h : nsrc ≤ p.1.src) (rest : List Byte) :
    decPage nsrc (encPage p ++ rest) = none := by
  simp [decPage, encPage, h]

/-- A source's size and flags from `u`, its bytes from `v` (R353). -/
def Source.headOf (u v : Source) : Source := { u with bytes := v.bytes }

theorem decSourceHead_encSourceHead {u : Source} (h : u.wf = true) (v : Source) :
    Decodes (decSourceHead v) (encSourceHead u) (u.headOf v) := by
  intro rest
  obtain ⟨-, size, rederivable⟩ := Source.wf_iff.mp h
  simp [decSourceHead, encSourceHead, size, Source.headOf, rederivable]

/-- A source after a load: what is not in the snapshot keeps the bytes it has (R353). -/
def Source.restored (u v : Source) : Source :=
  { u with bytes := if u.rederivable then v.bytes else Store.ofBytes (u.bytes.toBytes u.size) }

theorem decSourceBytes_encSourceBytes (u v : Source) :
    Decodes (decSourceBytes (u.headOf v)) (encSourceBytes u) (u.restored v) := by
  intro rest
  unfold decSourceBytes encSourceBytes Source.restored
  by_cases h : u.rederivable = true
  · simp [Source.headOf, h]
  · have bytes := decTimes_bytes (u.bytes.toBytes u.size)
    rw [Store.length_toBytes] at bytes
    simp [Source.headOf, h, bytes]

theorem Source.read_restored {u v : Source}
    (h : u.rederivable = true → ∀ k < u.size, v.bytes.read k = u.bytes.read k) {k : Nat} (hk : k < u.size) :
    (u.restored v).bytes.read k = u.bytes.read k := by
  unfold Source.restored
  split
  · exact h ‹_› k hk
  · exact Store.read_ofBytes_toBytes u.bytes hk

/-! ### Substrates -/

/-- Two substrates of one shape (R354): `SameShape` for one of the two. -/
def Substrate.Alike (c c' : Substrate) : Prop :=
  c.space = c'.space ∧ c.page = c'.page ∧ c.pt.length = c'.pt.length ∧ c.nsrc = c'.nsrc

theorem decPages_flatMap {c : Substrate} {l : List (PageEntry × Option Nat)} (h : ∀ p ∈ l, p.1.src < c.nsrc)
    (hl : l.length = c.pt.length) :
    Decodes (decPages c) (l.flatMap encPage) { c with pt := l.map (·.1), hooks := l.map (·.2) } := by
  intro rest
  have pages := decTimes_decodes fun p hp => decPage_encPage (h p hp)
  rw [hl] at pages
  simp [decPages, pages]

/-- A page of a source that the substrate does not have fails the pages (R353). -/
theorem decPages_missing_source {c : Substrate} {l : List (PageEntry × Option Nat)} (h : ∀ p ∈ l, p.1.src < c.nsrc)
    (hl : l.length < c.pt.length) {bad : PageEntry × Option Nat} (hbad : c.nsrc ≤ bad.1.src) (rest : List Byte) :
    decPages c (l.flatMap encPage ++ (encPage bad ++ rest)) = none := by
  have pages := decTimes_fails (fun p hp => decPage_encPage (h p hp)) hl (decPage_missing_source hbad rest)
  simp [decPages, pages]

/-- A substrate with the sources of `u` after a load into the sources of `c`. -/
def Substrate.restored (u c : Substrate) : Substrate :=
  { u with srcs := (u.srcs.zip c.srcs).map fun p => p.1.restored p.2 }

/-- Between the two readings of the sources their sizes and flags are the new ones and their bytes the old ones. -/
def Substrate.headsOf (u c : Substrate) : Substrate :=
  { u with srcs := (u.srcs.zip c.srcs).map fun p => p.1.headOf p.2 }

section
variable {u c : Substrate} (hu : u.wf = true) (same : u.Alike c)
include hu same

theorem decPages_encPages : Decodes (decPages c) (encPages u) { u with srcs := c.srcs } := by
  obtain ⟨hspace, hpage, hpt, hsrc⟩ := same
  obtain ⟨-, -, -, hlen, hhooks, hn, -⟩ := Substrate.wf_iff.mp hu
  have named : ∀ p ∈ u.pt.zip u.hooks, p.1.src < c.nsrc := fun p hp => hsrc ▸ hn p.1 (List.of_mem_zip hp).1
  have read := decPages_flatMap named (by rw [List.length_zip, hlen, hhooks, Nat.min_self, ← hpt, hlen])
  rwa [List.map_fst_zip (by omega), List.map_snd_zip (by omega), ← hspace, ← hpage] at read

theorem decHeads_encSourceHead :
    Decodes (decHeads { u with srcs := c.srcs }) (u.srcs.flatMap encSourceHead) (u.headsOf c) := by
  intro rest
  obtain ⟨-, -, -, hsrc⟩ := same
  have heads := decAll_zip hsrc fun src h v => decSourceHead_encSourceHead (Substrate.srcs_wf hu src h) v
  have decoders : (u.srcs.zip c.srcs).map (fun p => decSourceHead p.2) = c.srcs.map decSourceHead :=
    (List.map_map ..).symm.trans (congrArg (List.map decSourceHead) (List.map_snd_zip hsrc.ge))
  rw [decoders] at heads
  simp [decHeads, heads, Substrate.headsOf]

end

theorem decBytes_encSourceBytes {u c : Substrate} (same : u.Alike c) :
    Decodes (decBytes (u.headsOf c)) (u.srcs.flatMap encSourceBytes) (u.restored c) := by
  intro rest
  obtain ⟨-, -, -, hsrc⟩ := same
  have bytes := decAll_zip hsrc fun src _ v => decSourceBytes_encSourceBytes src v
  simp [decBytes, Substrate.headsOf, Substrate.restored, Function.comp_def, bytes]

/-! ### Chunks -/

/-- The port registers of `TAG_REG` (R352). -/
def encRegPorts (s : State) : List Byte :=
  enc8 s.ctrl ++ enc8 s.mask ++ encBool s.vbl ++ encBool s.s0hit ++ encBool s.ovf ++ enc8 s.latch ++ enc8 s.oamAddr ++
  encBool s.nmiReq

/-- The dot engine's fields of `TAG_REG` (R352). -/
def encRegEngine (s : State) : List Byte :=
  enc16 s.line ++ enc16 s.dot ++ encNat s.clock ++ encNat s.frame ++ encBool s.odd ++ encNat s.warmUp ++
  encBool s.vblSuppress ++ enc8 s.burstPhase

/-- The pipeline's fields of `TAG_REG` (R352). -/
def encRegPipeline (s : State) : List Byte :=
  enc8 s.ntLatch ++ enc8 s.atLatch ++ enc8 s.ptLo ++ enc8 s.ptHi ++
  enc16 s.shLo ++ enc16 s.shHi ++ enc16 s.atShLo ++ enc16 s.atShHi ++ enc8 s.sprLo

/-- The sprite buffers and the last bus address of `TAG_REG` (R352). -/
def encRegSprites (s : State) : List Byte := encSec s.sec ++ s.obuf.flatMap encSlot ++ enc16 s.lastBus

theorem encReg_eq (s : State) :
    encReg s = encRegPorts s ++ (encRegEngine s ++ (encRegPipeline s ++ encRegSprites s)) := by
  unfold encReg
  simp only [encRegPorts, encRegEngine, encRegPipeline, encRegSprites, List.append_assoc]

/-- A state with the port registers of `u`. -/
def State.withPorts (s u : State) : State :=
  { s with
    ctrl := u.ctrl, mask := u.mask, vbl := u.vbl, s0hit := u.s0hit, ovf := u.ovf, latch := u.latch
    oamAddr := u.oamAddr, nmiReq := u.nmiReq }

/-- A state with the dot engine's fields of `u`. -/
def State.withEngine (s u : State) : State :=
  { s with
    line := u.line, dot := u.dot, clock := u.clock, frame := u.frame, odd := u.odd, warmUp := u.warmUp
    vblSuppress := u.vblSuppress, burstPhase := u.burstPhase }

/-- A state with the pipeline's fields of `u`. -/
def State.withPipeline (s u : State) : State :=
  { s with
    ntLatch := u.ntLatch, atLatch := u.atLatch, ptLo := u.ptLo, ptHi := u.ptHi
    shLo := u.shLo, shHi := u.shHi, atShLo := u.atShLo, atShHi := u.atShHi, sprLo := u.sprLo }

/-- A state with the sprite buffers and the last bus address of `u`. -/
def State.withSprites (s u : State) : State := { s with sec := u.sec, obuf := u.obuf, lastBus := u.lastBus }

/-- A state with what `TAG_REG` holds of `u` (R352). -/
def State.withReg (s u : State) : State := (((s.withPorts u).withEngine u).withPipeline u).withSprites u

/-- A state with what `TAG_SCROLL` holds of `u` (R352). -/
def State.withScroll (s u : State) : State := { s with v := u.v, t := u.t, x := u.x, w := u.w, readBuf := u.readBuf }

/-- A state with the OAM of `u` as a snapshot's bytes give it (R352, R128). -/
def State.withOam (s u : State) : State := { s with oam := oamOfBytes (encOam u) }

/-- A state with the palette of `u` as a snapshot's bytes give it (R352). -/
def State.withPal (s u : State) : State := { s with pal := Store.ofBytes (u.pal.toBytes 32) }

/-- A state with what `TAG_BANKS` holds of `u` (R352). -/
def State.withBanks (s u : State) : State :=
  { s with chr := u.chr.restored s.chr, nmt := u.nmt.restored s.nmt, mirror := u.mirror }

theorem decMirror_code (m : Mirror) : Decodes decMirror (enc8 (BitVec.ofNat 8 m.code)) m := by
  intro rest
  cases m <;> rfl

section
variable {s u : State}

theorem decRegPorts_encRegPorts : Decodes (decRegPorts s) (encRegPorts u) (s.withPorts u) := by
  intro rest
  simp [decRegPorts, encRegPorts, State.withPorts]

theorem decRegEngine_encRegEngine : Decodes (decRegEngine s) (encRegEngine u) (s.withEngine u) := by
  intro rest
  simp [decRegEngine, encRegEngine, State.withEngine]

theorem decRegPipeline_encRegPipeline : Decodes (decRegPipeline s) (encRegPipeline u) (s.withPipeline u) := by
  intro rest
  simp [decRegPipeline, encRegPipeline, State.withPipeline]

theorem decRegSprites_encRegSprites (hu : u.spritesWf = true) (cfg : u.cfg = s.cfg) :
    Decodes (decRegSprites s) (encRegSprites u) (s.withSprites u) := by
  intro rest
  obtain ⟨cap, slots, full⟩ := State.spritesWf_iff.mp hu
  have sec := decSec_encSec cap
  have obuf := decTimes_decodes fun o ho => decSlot_encSlot (List.all_eq_true.mp full o ho)
  rw [slots] at obuf
  rw [cfg] at sec obuf
  simp [decRegSprites, encRegSprites, sec, obuf, State.withSprites]

theorem decReg_encReg (hu : u.spritesWf = true) (cfg : u.cfg = s.cfg) :
    Decodes (decReg s) (encReg u) (s.withReg u) := by
  intro rest
  have sprites := decRegSprites_encRegSprites (s := ((s.withPorts u).withEngine u).withPipeline u) hu cfg
  simp [decReg, encReg_eq, decRegPorts_encRegPorts, decRegEngine_encRegEngine, decRegPipeline_encRegPipeline, sprites,
    State.withReg]

theorem decScroll_encScroll : Decodes (decScroll s) (encScroll u) (s.withScroll u) := by
  intro rest
  simp [decScroll, encScroll, State.withScroll]

theorem decOam_encOam : Decodes (decOam s) (encOam u) (s.withOam u) := by
  intro rest
  have bytes := decTimes_bytes (encOam u)
  have length : (encOam u).length = 256 := by simp [encOam]
  rw [length] at bytes
  simp [decOam, bytes, State.withOam]

theorem decPal_encPal : Decodes (decPal s) (encPal u) (s.withPal u) := by
  intro rest
  have entries := decTimes_decodes (l := u.pal.toBytes 32) fun c _ => dec8_enc8 (w := 6) (by decide) c
  rw [Store.length_toBytes, Store.toBytes, List.flatMap_map] at entries
  simp [decPal, encPal, entries, State.withPal, Store.toBytes]

theorem decBanks_encBanks (hchr : u.chr.wf = true) (hnmt : u.nmt.wf = true) (same : SameShape u s) :
    Decodes (decBanks s) (encBanks u) (s.withBanks u) := by
  intro rest
  have chr : u.chr.Alike s.chr := same.2 .chr
  have nmt : u.nmt.Alike s.nmt := same.2 .nmt
  simp [decBanks, encBanks, State.withBanks, decMirror_code, decPages_encPages hchr chr, decPages_encPages hnmt nmt,
    decHeads_encSourceHead hchr chr, decHeads_encSourceHead hnmt nmt, decBytes_encSourceBytes chr,
    decBytes_encSourceBytes nmt]

end

end Sys2Proof.Machine
end

section
/-! A load of chunks: one decoder per tag, and what loading a snapshot's chunks gives (R352-R354). -/

namespace Sys2Proof.Machine

/-! ### A chunk -/

/-- The layout of a tag; a chunk of unknown tag is skipped whole (R353). -/
def decodeTag (s : State) : Tag → Dec State
  | .reg => decReg s
  | .scroll => decScroll s
  | .oam => decOam s
  | .banks => decBanks s
  | .pal => decPal s
  | .unknown _ => fun _ => some (s, [])

theorem restoreChunk_of_len {c : Chunk} (h : c.len = c.bytes.length) (s : State) :
    restoreChunk s c = wholly (decodeTag s c.tag c.bytes) := by
  rw [restoreChunk, if_neg (not_not_intro h)]
  cases c.tag <;> rfl

theorem restoreChunk_of_len_ne {c : Chunk} (h : c.len ≠ c.bytes.length) (s : State) : restoreChunk s c = none :=
  if_pos h

theorem restoreChunk_of_decodes {s t : State} {tag : Tag} {bytes : List Byte}
    (h : Decodes (decodeTag s tag) bytes t) : restoreChunk s (chunkOf tag bytes) = some t := by
  have whole := h []
  rw [List.append_nil] at whole
  exact (restoreChunk_of_len rfl s).trans (congrArg wholly whole)

/-- A chunk that loads is read to its end by its tag's layout. -/
theorem decodeTag_of_restoreChunk {s t : State} {c : Chunk} (h : restoreChunk s c = some t) :
    decodeTag s c.tag c.bytes = some (t, []) := by
  by_cases len : c.len = c.bytes.length
  · exact wholly_eq_some ((restoreChunk_of_len len s).symm.trans h)
  · rw [restoreChunk_of_len_ne len] at h
    cases h

/-! ### A snapshot -/

/-- A state with everything that a snapshot holds of `u`: what is left of it is what no chunk holds (R352, R354). -/
def State.withSnapshot (s u : State) : State :=
  { u with
    oam := oamOfBytes (encOam u), pal := Store.ofBytes (u.pal.toBytes 32)
    chr := u.chr.restored s.chr, nmt := u.nmt.restored s.nmt
    trace := s.trace, out := s.out, outBound := s.outBound, refused := s.refused, draws := s.draws, inbox := s.inbox
    reply := s.reply, cpu := s.cpu }

theorem withChunks_eq_withSnapshot {s u : State} (cfg : u.cfg = s.cfg) :
    ((((s.withReg u).withScroll u).withOam u).withBanks u).withPal u = s.withSnapshot u := by
  simp only [State.withReg, State.withPorts, State.withEngine, State.withPipeline, State.withSprites, State.withScroll,
    State.withOam, State.withBanks, State.withPal, State.withSnapshot, cfg]

theorem restoreAll_cons {s t : State} {c : Chunk} (h : restoreChunk s c = some t) (rest : List Chunk) :
    restoreAll (c :: rest) s = restoreAll rest t := by
  rw [restoreAll, h]

section
variable {s u : State} (hu : u.wf = true) (same : SameShape u s)
include hu same

/-- Each chunk of a snapshot is read by its tag's layout, whatever follows its bytes. -/
theorem snapshotChunks_decode : ∀ c ∈ snapshotChunks u, ∃ t, Decodes (decodeTag s c.tag) c.bytes t := by
  obtain ⟨⟨hchr, hnmt, -⟩, hspr⟩ := State.wf_iff.mp hu
  simp only [snapshotChunks, List.forall_mem_cons]
  exact ⟨⟨_, decReg_encReg hspr same.1⟩, ⟨_, decScroll_encScroll⟩, ⟨_, decOam_encOam⟩,
    ⟨_, decBanks_encBanks hchr hnmt same⟩, ⟨_, decPal_encPal⟩, nofun⟩

theorem restoreAll_snapshotChunks : restoreAll (snapshotChunks u) s = some (s.withSnapshot u) := by
  obtain ⟨⟨hchr, hnmt, -⟩, hspr⟩ := State.wf_iff.mp hu
  have shape : SameShape u (((s.withReg u).withScroll u).withOam u) := ⟨same.1, fun x => by cases x <;> exact same.2 _⟩
  rw [snapshotChunks, restoreAll_cons (restoreChunk_of_decodes (tag := .reg) (decReg_encReg hspr same.1)),
    restoreAll_cons (restoreChunk_of_decodes (tag := .scroll) decScroll_encScroll),
    restoreAll_cons (restoreChunk_of_decodes (tag := .oam) decOam_encOam),
    restoreAll_cons (restoreChunk_of_decodes (tag := .banks) (decBanks_encBanks hchr hnmt shape)),
    restoreAll_cons (restoreChunk_of_decodes (tag := .pal) decPal_encPal), withChunks_eq_withSnapshot same.1]
  rfl

theorem exec_restore_snapshotChunks :
    exec (.restore (snapshotChunks u)) s = .next (answer .nothing { s.withSnapshot u with trace := [] }) := by
  change execRestore (snapshotChunks u) s = _
  rw [execRestore, restoreAll_snapshotChunks hu same]

end

/-! ### Memories after a load -/

theorem oamByte_withSnapshot (s u : State) {a : Nat} (h : a < 256) : (s.withSnapshot u).oamByte a = u.oamByte a := by
  have byte : (oamOfBytes (encOam u)).read a = oamMask a (u.oamByte a) := by
    rw [oamOfBytes, Store.read_ofBytes]
    simp [encOam, h]
  change oamMask a ((oamOfBytes (encOam u)).read a) = _
  rw [byte, oamMask_oamMask, State.oamByte, oamMask_oamMask]

theorem pal_withSnapshot (s u : State) {k : Nat} (h : k < 32) : (s.withSnapshot u).pal.read k = u.pal.read k :=
  Store.read_ofBytes_toBytes u.pal h

theorem sub_withSnapshot (s u : State) (x : Sub) : (s.withSnapshot u).sub x = (u.sub x).restored (s.sub x) := by
  cases x <;> rfl

section
variable {u c : Substrate} (same : u.nsrc = c.nsrc)
include same

theorem Substrate.nsrc_restored : (u.restored c).nsrc = u.nsrc := by
  have length : u.srcs.length = c.srcs.length := same
  simp [Substrate.restored, Substrate.nsrc, length]

/-- Past the last source all three have the placeholder, which a load would leave as it is. -/
theorem Substrate.source_restored (i : Nat) : (u.restored c).source i = (u.source i).restored (c.source i) := by
  have length : u.srcs.length = c.srcs.length := same
  by_cases h : i < u.srcs.length
  · have h' : i < c.srcs.length := length ▸ h
    simp [Substrate.source, Substrate.restored, h, h']
  · have h' : ¬i < c.srcs.length := length ▸ h
    simp [Substrate.source, Substrate.restored, h, h', Source.restored, placeholderSource]

end

end Sys2Proof.Machine
end

section
open Sys2Proof Sys2Proof.Machine

/-- Settles O46: each chunk's layout reads back what was written, and of the sources those that the snapshot leaves out
have by premise the bytes they had. -/
theorem restoreOfASnapshotGivesBackTheState : Obligations.RestoreOfASnapshotGivesBackTheState := by
  intro s t wf same rebuilt
  refine ⟨snapshotChunks s, _, rfl, exec_restore_snapshotChunks wf same, rfl, fun a h => oamByte_withSnapshot t s h,
    fun k h => pal_withSnapshot t s h, fun x => ?_⟩
  obtain ⟨-, -, -, nsrc⟩ := same.2 x
  have sub : (answer .nothing { t.withSnapshot s with trace := [] }).sub x = (s.sub x).restored (t.sub x) := by
    rw [← sub_withSnapshot]
    cases x <;> rfl
  rw [sub]
  refine ⟨rfl, Substrate.nsrc_restored nsrc, fun i => ?_⟩
  rw [Substrate.source_restored nsrc]
  exact ⟨rfl, fun k hk => Source.read_restored (rebuilt x i) hk⟩

end

section
/-! What a load cannot read: bytes past a layout's end, short of it, or of another length (R353). -/

namespace Sys2Proof.Machine

/-! ### Bytes behind what a decoder reads -/

section
variable {α β : Type}

/-- What a decoder reads does not depend on the bytes behind it. -/
def Extends (d : Dec α) : Prop :=
  ∀ bytes a rest more, d bytes = some (a, rest) → d (bytes ++ more) = some (a, rest ++ more)

theorem Extends.bind {d : Dec α} {k : α × List Byte → Option (β × List Byte)} (hd : Extends d)
    (hk : ∀ a, Extends fun bytes => k (a, bytes)) : Extends fun bytes => d bytes >>= k := by
  intro bytes b rest more h
  obtain ⟨⟨a, left⟩, hr, h⟩ := Option.bind_eq_some_iff.mp h
  exact Option.bind_eq_some_iff.mpr ⟨_, hd _ _ _ more hr, hk a _ _ _ more h⟩

theorem Extends.pure (b : β) : Extends fun bytes => some (b, bytes) := by
  intro bytes a rest more h
  cases h
  rfl

theorem Extends.none : Extends (fun _ => .none : Dec β) := nofun

theorem Extends.ite {c : Prop} [Decidable c] {d e : Dec β} (hd : Extends d) (he : Extends e) :
    Extends fun bytes => if c then d bytes else e bytes := by
  by_cases h : c
  · simpa only [if_pos h] using hd
  · simpa only [if_neg h] using he

theorem Extends.times {f : Dec β} (h : Extends f) (n : Nat) : Extends (decTimes n f) := by
  induction n with
  | zero => exact .pure []
  | succ n ih => exact .bind h fun b => .bind ih fun l => .pure (b :: l)

theorem Extends.all {g : α → Dec β} (h : ∀ a, Extends (g a)) (l : List α) : Extends (decAll (l.map g)) := by
  induction l with
  | nil => exact .pure []
  | cons a l ih => exact .bind (h a) fun b => .bind ih fun l => .pure (b :: l)

end

theorem decBool_extends : Extends decBool := by
  intro bytes a rest more h
  cases bytes with
  | nil => cases h
  | cons b bytes => cases h; rfl

theorem dec8_extends (w : Nat) : Extends (dec8 w) := by
  intro bytes a rest more h
  cases bytes with
  | nil => cases h
  | cons b bytes => cases h; rfl

theorem dec16_extends (w : Nat) : Extends (dec16 w) := by
  intro bytes a rest more h
  match bytes, h with
  | lo :: hi :: bytes, h => cases h; rfl

theorem decNat_extends : Extends decNat := by
  intro bytes
  induction bytes with
  | nil => exact fun _ _ _ h => nomatch h
  | cons b bytes ih =>
    intro n rest more h
    rw [decNat] at h
    rw [List.cons_append, decNat]
    split at h
    · rename_i last
      cases h
      rw [if_pos last]
    · rename_i last
      rw [if_neg last]
      split at h
      · cases h
      · rename_i hd
        cases h
        rw [ih _ _ more hd]

theorem decEntry_extends : Extends decEntry :=
  .bind (dec8_extends 8) fun _ => .bind (dec8_extends 8) fun _ => .bind (dec8_extends 8) fun _ =>
    .bind (dec8_extends 8) fun _ => .bind (dec8_extends 6) fun _ => .pure _

theorem decSec_extends (cap : Nat) : Extends (decSec cap) :=
  .bind decNat_extends fun n => .ite (decEntry_extends.times n) .none

theorem decSlot_extends : Extends decSlot := by
  refine .bind decBool_extends fun full => ?_
  cases full
  · exact .pure none
  · exact .bind (dec8_extends 8) fun _ => .bind decBool_extends fun _ => .bind decBool_extends fun _ =>
      .bind (dec8_extends 2) fun _ => .bind ((dec8_extends 2).times 8) fun _ => .pure _

theorem decPage_extends (nsrc : Nat) : Extends (decPage nsrc) :=
  .bind decNat_extends fun _ => .ite .none (.bind decNat_extends fun _ => .bind decNat_extends fun _ => .pure _)

theorem decSourceHead_extends (src : Source) : Extends (decSourceHead src) :=
  .bind decNat_extends fun _ => .bind decBool_extends fun _ => .bind decBool_extends fun _ => .ite (.pure _) .none

theorem decSourceBytes_extends (src : Source) : Extends (decSourceBytes src) := by
  intro bytes u rest more h
  unfold decSourceBytes at h ⊢
  split at h
  · rename_i kept
    cases h
    rw [if_pos kept]
  · rename_i kept
    rw [if_neg kept]
    split at h
    · cases h
    · rename_i l left hd
      cases h
      rw [(dec8_extends 8).times src.size bytes l _ more hd]

theorem decPages_extends (c : Substrate) : Extends (decPages c) :=
  .bind ((decPage_extends c.nsrc).times c.pt.length) fun _ => .pure _

theorem decHeads_extends (c : Substrate) : Extends (decHeads c) :=
  .bind (.all decSourceHead_extends c.srcs) fun _ => .pure _

theorem decBytes_extends (c : Substrate) : Extends (decBytes c) :=
  .bind (.all decSourceBytes_extends c.srcs) fun _ => .pure _

theorem decMirror_extends : Extends decMirror :=
  .bind (dec8_extends 8) fun b => by
    cases h : Mirror.ofCode b.toNat
    · simpa [h] using Extends.none
    · simpa [h] using Extends.pure _

section
variable (s : State)

theorem decRegPorts_extends : Extends (decRegPorts s) :=
  .bind (dec8_extends 8) fun _ => .bind (dec8_extends 8) fun _ => .bind decBool_extends fun _ =>
    .bind decBool_extends fun _ => .bind decBool_extends fun _ => .bind (dec8_extends 8) fun _ =>
    .bind (dec8_extends 8) fun _ => .bind decBool_extends fun _ => .pure _

theorem decRegEngine_extends : Extends (decRegEngine s) :=
  .bind (dec16_extends 9) fun _ => .bind (dec16_extends 9) fun _ => .bind decNat_extends fun _ =>
    .bind decNat_extends fun _ => .bind decBool_extends fun _ => .bind decNat_extends fun _ =>
    .bind decBool_extends fun _ => .bind (dec8_extends 2) fun _ => .pure _

theorem decRegPipeline_extends : Extends (decRegPipeline s) :=
  .bind (dec8_extends 8) fun _ => .bind (dec8_extends 2) fun _ => .bind (dec8_extends 8) fun _ =>
    .bind (dec8_extends 8) fun _ => .bind (dec16_extends 16) fun _ => .bind (dec16_extends 16) fun _ =>
    .bind (dec16_extends 16) fun _ => .bind (dec16_extends 16) fun _ => .bind (dec8_extends 8) fun _ => .pure _

theorem decRegSprites_extends : Extends (decRegSprites s) :=
  .bind (decSec_extends _) fun _ => .bind (decSlot_extends.times _) fun _ => .bind (dec16_extends 14) fun _ => .pure _

theorem decReg_extends : Extends (decReg s) :=
  .bind (decRegPorts_extends s) fun s => .bind (decRegEngine_extends s) fun s =>
    .bind (decRegPipeline_extends s) fun s => decRegSprites_extends s

theorem decScroll_extends : Extends (decScroll s) :=
  .bind (dec16_extends 15) fun _ => .bind (dec16_extends 15) fun _ => .bind (dec8_extends 3) fun _ =>
    .bind decBool_extends fun _ => .bind (dec8_extends 8) fun _ => .pure _

theorem decOam_extends : Extends (decOam s) := .bind ((dec8_extends 8).times 256) fun _ => .pure _

theorem decPal_extends : Extends (decPal s) := .bind ((dec8_extends 6).times 32) fun _ => .pure _

theorem decBanks_extends : Extends (decBanks s) :=
  .bind (decPages_extends _) fun chr => .bind (decPages_extends _) fun nmt => .bind decMirror_extends fun _ =>
    .bind (decHeads_extends chr) fun chr => .bind (decHeads_extends nmt) fun nmt =>
    .bind (decBytes_extends chr) fun _ => .bind (decBytes_extends nmt) fun _ => .pure _

theorem decodeTag_extends {tag : Tag} (known : ∀ k, tag ≠ .unknown k) : Extends (decodeTag s tag) := by
  cases tag with
  | reg => exact decReg_extends s
  | scroll => exact decScroll_extends s
  | oam => exact decOam_extends s
  | banks => exact decBanks_extends s
  | pal => exact decPal_extends s
  | unknown k => exact absurd rfl (known k)

end

end Sys2Proof.Machine
end

section
/-! The failing loads by their grounds, and what every load keeps (R353). -/

namespace Sys2Proof.Machine

/-! ### Layouts of fixed length -/

section
variable {α β : Type}

/-- A decoder reads exactly `n` bytes. -/
def Takes (d : Dec α) (n : Nat) : Prop := ∀ bytes a rest, d bytes = some (a, rest) → bytes.length = n + rest.length

theorem Takes.bind {d : Dec α} {k : α × List Byte → Option (β × List Byte)} {m n : Nat} (hd : Takes d m)
    (hk : ∀ a, Takes (fun bytes => k (a, bytes)) n) : Takes (fun bytes => d bytes >>= k) (n + m) := by
  intro bytes b rest h
  obtain ⟨⟨a, left⟩, hr, h⟩ := Option.bind_eq_some_iff.mp h
  rw [hd _ _ _ hr, hk a _ _ _ h]
  omega

theorem Takes.pure (b : β) : Takes (fun bytes => some (b, bytes)) 0 := by
  intro bytes a rest h
  cases h
  exact (Nat.zero_add _).symm

theorem Takes.times {f : Dec β} (h : Takes f 1) (n : Nat) : Takes (decTimes n f) n := by
  induction n with
  | zero => exact .pure []
  | succ n ih =>
    refine .bind h fun b => ?_
    have tail := Takes.bind (k := fun p => some (b :: p.1, p.2)) ih fun l => .pure (b :: l)
    rwa [Nat.zero_add] at tail

end

theorem decBool_takes : Takes decBool 1 := by
  intro bytes a rest h
  cases bytes with
  | nil => cases h
  | cons b bytes => cases h; exact Nat.add_comm ..

theorem dec8_takes (w : Nat) : Takes (dec8 w) 1 := by
  intro bytes a rest h
  cases bytes with
  | nil => cases h
  | cons b bytes => cases h; exact Nat.add_comm ..

theorem dec16_takes (w : Nat) : Takes (dec16 w) 2 := by
  intro bytes a rest h
  match bytes, h with
  | lo :: hi :: bytes, h => cases h; exact Nat.add_comm (rest.length) 2

section
variable (s : State)

theorem decScroll_takes : Takes (decScroll s) 7 :=
  .bind (dec16_takes 15) fun _ => .bind (dec16_takes 15) fun _ => .bind (dec8_takes 3) fun _ =>
    .bind decBool_takes fun _ => .bind (dec8_takes 8) fun _ => .pure _

theorem decOam_takes : Takes (decOam s) 256 := .bind ((dec8_takes 8).times 256) fun _ => .pure _

theorem decPal_takes : Takes (decPal s) 32 := .bind ((dec8_takes 6).times 32) fun _ => .pure _

end

/-! ### What a load keeps -/

/-- What no chunk changes: the shape, the refusal mark, the output buffer and its binding (R353, R354). -/
def LoadFrame (s t : State) : Prop :=
  SameShape s t ∧ t.refused = s.refused ∧ t.out = s.out ∧ t.outBound = s.outBound

theorem SameShape.trans {s t u : State} (h : SameShape s t) (k : SameShape t u) : SameShape s u := by
  refine ⟨h.1.trans k.1, fun x => ?_⟩
  obtain ⟨hspace, hpage, hpt, hsrc⟩ := h.2 x
  obtain ⟨kspace, kpage, kpt, ksrc⟩ := k.2 x
  exact ⟨hspace.trans kspace, hpage.trans kpage, hpt.trans kpt, hsrc.trans ksrc⟩

theorem LoadFrame.refl (s : State) : LoadFrame s s := ⟨⟨rfl, fun _ => ⟨rfl, rfl, rfl, rfl⟩⟩, rfl, rfl, rfl⟩

section
variable {c c' : Substrate} (h : c.Alike c')
include h

theorem decPages_alike : Yields (decPages c') c.Alike := by
  obtain ⟨hspace, hpage, hpt, hsrc⟩ := h
  exact .bind (.times _ (.anything _)) fun l ⟨hlen, _⟩ =>
    .pure ⟨hspace, hpage, hpt.trans (hlen.symm.trans (List.length_map ..).symm), hsrc⟩

theorem Substrate.Alike.withSources {srcs : List Source} (hlen : srcs.length = c'.srcs.length) :
    c.Alike { c' with srcs } := by
  obtain ⟨hspace, hpage, hpt, hsrc⟩ := h
  exact ⟨hspace, hpage, hpt, hsrc.trans hlen.symm⟩

theorem decHeads_alike : Yields (decHeads c') c.Alike :=
  .bind (.all c'.srcs fun _ _ => .anything _) fun _ ⟨hlen, _⟩ => .pure (h.withSources hlen)

theorem decBytes_alike : Yields (decBytes c') c.Alike :=
  .bind (.all c'.srcs fun _ _ => .anything _) fun _ ⟨hlen, _⟩ => .pure (h.withSources hlen)

end

section
variable {s t : State} (h : LoadFrame s t)
include h

theorem decRegPorts_frame : Yields (decRegPorts t) (LoadFrame s) :=
  .skip fun _ => .skip fun _ => .skip fun _ => .skip fun _ => .skip fun _ => .skip fun _ => .skip fun _ =>
    .skip fun _ => .pure h

theorem decRegEngine_frame : Yields (decRegEngine t) (LoadFrame s) :=
  .skip fun _ => .skip fun _ => .skip fun _ => .skip fun _ => .skip fun _ => .skip fun _ => .skip fun _ =>
    .skip fun _ => .pure h

theorem decRegPipeline_frame : Yields (decRegPipeline t) (LoadFrame s) :=
  .skip fun _ => .skip fun _ => .skip fun _ => .skip fun _ => .skip fun _ => .skip fun _ => .skip fun _ =>
    .skip fun _ => .skip fun _ => .pure h

theorem decReg_frame : Yields (decReg t) (LoadFrame s) :=
  .bind (decRegPorts_frame h) fun _ h => .bind (decRegEngine_frame h) fun _ h =>
    .bind (decRegPipeline_frame h) fun _ h => .skip fun _ => .skip fun _ => .skip fun _ => .pure h

theorem decScroll_frame : Yields (decScroll t) (LoadFrame s) :=
  .skip fun _ => .skip fun _ => .skip fun _ => .skip fun _ => .skip fun _ => .pure h

theorem decBanks_frame : Yields (decBanks t) (LoadFrame s) := by
  obtain ⟨⟨cfg, same⟩, kept⟩ := h
  refine .bind (decPages_alike (same .chr)) fun _ hchr => .bind (decPages_alike (same .nmt)) fun _ hnmt =>
    .skip fun _ => .bind (decHeads_alike hchr) fun _ hchr => .bind (decHeads_alike hnmt) fun _ hnmt =>
    .bind (decBytes_alike hchr) fun _ hchr => .bind (decBytes_alike hnmt) fun _ hnmt => .pure ⟨⟨cfg, fun x => ?_⟩, kept⟩
  cases x
  · exact hchr
  · exact hnmt

theorem decodeTag_frame (tag : Tag) : Yields (decodeTag t tag) (LoadFrame s) := by
  cases tag with
  | reg => exact decReg_frame h
  | scroll => exact decScroll_frame h
  | oam => exact .skip fun _ => .pure h
  | banks => exact decBanks_frame h
  | pal => exact .skip fun _ => .pure h
  | unknown k => intro bytes u rest he; cases he; exact h

theorem restoreAll_frame {chunks : List Chunk} {u : State} (hu : restoreAll chunks t = some u) : LoadFrame s u := by
  induction chunks generalizing t with
  | nil => cases hu; exact h
  | cons c rest ih =>
    unfold restoreAll at hu
    split at hu
    · exact ih (decodeTag_frame h c.tag _ _ _ (decodeTag_of_restoreChunk ‹_›)) hu
    · cases hu

end

/-! ### Failing loads -/

theorem restoreAll_append (before after : List Chunk) (s : State) :
    restoreAll (before ++ after) s = (restoreAll before s).bind (restoreAll after) := by
  induction before generalizing s with
  | nil => rfl
  | cons c before ih =>
    rw [List.cons_append, restoreAll, restoreAll]
    split
    · exact ih _
    · rfl

/-- A chunk that no state of the shape can load fails the whole load, wherever it stands (R353). -/
theorem exec_restore_of_bad {s : State} {c : Chunk} (bad : ∀ t, LoadFrame s t → restoreChunk t c = none)
    (before after : List Chunk) :
    exec (.restore (before ++ c :: after)) s = .next { s with reply := .reason .corruptState } := by
  have load : restoreAll (before ++ c :: after) s = none := by
    rw [restoreAll_append]
    cases h : restoreAll before s with
    | none => rfl
    | some t => rw [Option.bind_some, restoreAll, bad t (restoreAll_frame (.refl s) h)]
  change execRestore _ s = _
  rw [execRestore, load]
  rfl

theorem restoreChunk_unknown {k : Nat} {c : Chunk} (hk : c.tag = .unknown k) (len : c.len = c.bytes.length)
    (s : State) : restoreChunk s c = some s := by
  rw [restoreChunk_of_len len, hk]
  rfl

theorem exec_restore_unknown {k : Nat} {c : Chunk} (hk : c.tag = .unknown k) (len : c.len = c.bytes.length)
    (before after : List Chunk) (s : State) :
    exec (.restore (before ++ c :: after)) s = exec (.restore (before ++ after)) s := by
  have skipped : restoreAll (c :: after) = restoreAll after :=
    funext fun t => restoreAll_cons (restoreChunk_unknown hk len t) after
  change execRestore _ s = execRestore _ s
  rw [execRestore, execRestore, restoreAll_append, skipped, ← restoreAll_append]

/-- A load fails and changes nothing, or keeps the frame of a load (R353). -/
theorem exec_restore_cases (chunks : List Chunk) (s : State) :
    exec (.restore chunks) s = .next { s with reply := .reason .corruptState } ∨
      ∃ t, LoadFrame s t ∧ exec (.restore chunks) s = .next { t with trace := [], reply := .nothing } := by
  change execRestore _ s = _ ∨ ∃ t, _ ∧ execRestore _ s = _
  rw [execRestore]
  cases h : restoreAll chunks s with
  | none => exact .inl rfl
  | some t => exact .inr ⟨t, restoreAll_frame (.refl s) h, rfl⟩

/-! ### The grounds of failure -/

theorem snapshotChunks_known {u : State} {c : Chunk} (h : c ∈ snapshotChunks u) (k : Nat) : c.tag ≠ .unknown k := by
  revert c
  simp only [snapshotChunks, List.forall_mem_cons]
  exact ⟨nofun, nofun, nofun, nofun, nofun, nofun⟩

theorem restoreChunk_eq_none {s : State} {c : Chunk} (h : ∀ t, decodeTag s c.tag c.bytes ≠ some (t, [])) :
    restoreChunk s c = none :=
  Option.eq_none_iff_forall_ne_some.mpr fun t ht => h t (decodeTag_of_restoreChunk ht)

theorem restoreChunk_of_length_ne {s : State} {c : Chunk} {n : Nat} (takes : Takes (decodeTag s c.tag) n)
    (h : c.bytes.length ≠ n) : restoreChunk s c = none :=
  restoreChunk_eq_none fun t ht => h (takes c.bytes t [] ht)

section
variable {s t : State} {c d : Chunk} {more : List Byte} (hd : Decodes (decodeTag s d.tag) d.bytes t)
  (tag : c.tag = d.tag) (hmore : more ≠ [])
include hd tag hmore

theorem restoreChunk_of_past_end (h : c.bytes = d.bytes ++ more) : restoreChunk s c = none := by
  refine restoreChunk_eq_none fun r hr => hmore ?_
  rw [tag, h, hd more] at hr
  cases hr
  rfl

theorem restoreChunk_of_short (hx : Extends (decodeTag s d.tag)) (h : c.bytes ++ more = d.bytes) :
    restoreChunk s c = none := by
  refine restoreChunk_eq_none fun r hr => hmore ?_
  have longer := hx _ _ _ more (tag ▸ hr)
  have whole := hd []
  rw [List.append_nil, ← h, longer] at whole
  cases whole
  rfl

end

section
variable {s t : State} {c : Chunk} {chr nmt : List (PageEntry × Option Nat)} {bad : PageEntry × Option Nat}
  {rest : List Byte} (frame : LoadFrame s t) (tag : c.tag = .banks)
include frame tag

/-- A page of `CHR` that names a source `CHR` does not have (R353). -/
theorem restoreChunk_of_chrPage (bytes : c.bytes = chr.flatMap encPage ++ encPage bad ++ rest)
    (named : ∀ p ∈ chr, p.1.src < s.chr.nsrc) (short : chr.length < s.chr.pt.length)
    (missing : s.chr.nsrc ≤ bad.1.src) : restoreChunk t c = none := by
  obtain ⟨⟨_, same⟩, _⟩ := frame
  obtain ⟨-, -, hpt, hsrc⟩ : s.chr.Alike t.chr := same .chr
  rw [hsrc] at named missing
  have pages := decPages_missing_source named (hpt ▸ short) missing rest
  refine restoreChunk_eq_none fun r => ?_
  rw [tag, bytes, List.append_assoc, decodeTag, decBanks, pages]
  nofun

/-- A page of `NMT`, behind all of `CHR`'s, that names a source `NMT` does not have (R353). -/
theorem restoreChunk_of_nmtPage (bytes : c.bytes = chr.flatMap encPage ++ nmt.flatMap encPage ++ encPage bad ++ rest)
    (named : ∀ p ∈ chr, p.1.src < s.chr.nsrc) (full : chr.length = s.chr.pt.length)
    (named' : ∀ p ∈ nmt, p.1.src < s.nmt.nsrc) (short : nmt.length < s.nmt.pt.length)
    (missing : s.nmt.nsrc ≤ bad.1.src) : restoreChunk t c = none := by
  obtain ⟨⟨_, same⟩, _⟩ := frame
  obtain ⟨-, -, hpt, hsrc⟩ : s.chr.Alike t.chr := same .chr
  obtain ⟨-, -, hpt', hsrc'⟩ : s.nmt.Alike t.nmt := same .nmt
  rw [hsrc] at named
  rw [hsrc'] at named' missing
  have read := decPages_flatMap named (full.trans hpt)
  have pages := decPages_missing_source named' (hpt' ▸ short) missing rest
  refine restoreChunk_eq_none fun r => ?_
  rw [tag, bytes, List.append_assoc, List.append_assoc, decodeTag, decBanks, read, Option.bind_eq_bind,
    Option.bind_some]
  dsimp only
  rw [pages]
  nofun

end

end Sys2Proof.Machine
end

section
open Sys2Proof Sys2Proof.Machine

/-- Settles O47: each ground is one at which the chunk cannot load into any state of the shape, which the chunks before
it keep; bytes past or short of a layout are told from the layout by what it leaves unread. -/
theorem restoreFailsWholeOrNotAtAll : Obligations.RestoreFailsWholeOrNotAtAll := by
  intro s before after c
  refine ⟨fun len => ?length, fun chr bad hook rest tag bytes named short missing => ?chrPage,
    fun chr nmt bad hook rest tag bytes named full named' short missing => ?nmtPage, ?fixedLength,
    fun u d more hu same hd tag hmore bytes => ?layout,
    fun k tag len => exec_restore_unknown tag len before after s, ?whole⟩
  case length => exact exec_restore_of_bad (fun t _ => restoreChunk_of_len_ne len t) before after
  case chrPage =>
    exact exec_restore_of_bad (fun t frame => restoreChunk_of_chrPage frame tag bytes named short missing) ..
  case nmtPage =>
    exact exec_restore_of_bad
      (fun t frame => restoreChunk_of_nmtPage frame tag bytes named full named' short missing) ..
  case fixedLength =>
    simp only [List.forall_mem_cons]
    refine ⟨fun tag len => ?_, fun tag len => ?_, fun tag len => ?_, nofun⟩
    · exact exec_restore_of_bad (fun t _ => restoreChunk_of_length_ne (tag ▸ decOam_takes t) len) ..
    · exact exec_restore_of_bad (fun t _ => restoreChunk_of_length_ne (tag ▸ decPal_takes t) len) ..
    · exact exec_restore_of_bad (fun t _ => restoreChunk_of_length_ne (tag ▸ decScroll_takes t) len) ..
  case layout =>
    refine exec_restore_of_bad (fun t ⟨shape, _⟩ => ?_) before after
    obtain ⟨r, reads⟩ := snapshotChunks_decode hu (same.trans shape) d hd
    rcases bytes with long | short
    · exact restoreChunk_of_past_end reads tag hmore long
    · exact restoreChunk_of_short reads tag hmore (decodeTag_extends t (snapshotChunks_known hd)) short
  case whole =>
    rcases exec_restore_cases (before ++ c :: after) s with h | ⟨t, ⟨-, kept⟩, h⟩
    · exact ⟨_, h, .inl rfl⟩
    · exact ⟨_, h, .inr ⟨rfl, rfl, kept⟩⟩

end

section
/-! The refusal mark: what sets it, and that nothing else moves it (R57, R370, R371). -/

namespace Sys2Proof.Machine

/-- The mark after an instruction: as it was, or set by a refusal with one of the instruction's own reasons, which
changes nothing else (R370, R371). -/
def MarkRule (i : Instr) (s t : State) : Prop :=
  t.refused = s.refused ∨ ∃ r, raises i r = true ∧ t = refuse r s

theorem MarkRule.of_refusal {i : Instr} {r : Reason} (h : raises i r = true) (s : State) : MarkRule i s (refuse r s) :=
  .inr ⟨r, h, rfl⟩

/-! ### The dot engine -/

theorem MicroEffect.refused {s t : State} (h : MicroEffect s t) : t.refused = s.refused := by
  cases h with
  | quiet h => rw [h]
  | warmCount => rfl
  | pixel => exact (emitPixel_frame ..).refused
  | eval => rfl
  | slots h _ => rw [h]
  | skip => rw [microSkip_frame s]

theorem microKeeps_refused (b : Bool) : MicroKeeps fun s => s.refused = b :=
  .of_effect fun _ _ h hs => h.refused.trans hs

theorem updateTo_refused (time : Nat) (s : State) : (updateTo time s).refused = s.refused :=
  updateTo_keeps (P := fun t => t.refused = s.refused)
    (dotStep_keeps (microKeeps_refused _) (fun t ht => by rw [advance_frame t]; exact ht) fun _ _ _ h => h) time s rfl

/-! ### The substrate calls -/

theorem setSub_refused (s : State) (x : Sub) (c : Substrate) : (s.setSub x c).refused = s.refused := by
  cases x <;> rfl

theorem exec_set_mark (x : Sub) (src : Nat) (flags : Option (Bool × Bool)) (size : Nat)
    (contents : Option (List Byte)) (s : State) :
    ∃ t, exec (.set x src flags size contents) s = .next t ∧ MarkRule (.set x src flags size contents) s t := by
  by_cases h : src < (s.sub x).nsrc ∧ isPow2 size = true
  · obtain ⟨n, readable, writable, -, done⟩ := exec_set_of_ok h.1 h.2 flags contents
    exact ⟨_, done, .inl (setSub_refused s x _)⟩
  · exact ⟨_, exec_set_of_not_ok h flags contents, .of_refusal rfl s⟩

theorem exec_swapBank_mark (x : Sub) (run start src : Nat) (banks : List Nat) (s : State) :
    ∃ t, exec (.swapBank x run start src banks) s = .next t ∧ MarkRule (.swapBank x run start src banks) s t := by
  by_cases h : (s.sub x).swapOk run start src banks = true
  · exact ⟨_, exec_swapBank_of_ok h, .inl (setSub_refused s x _)⟩
  · exact ⟨_, exec_swapBank_of_not_ok h, .of_refusal rfl s⟩

theorem exec_peek_mark (x : Sub) (a : Nat) (s : State) :
    ∃ t, exec (.peek x a) s = .next t ∧ MarkRule (.peek x a) s t := by
  obtain ⟨b, n, h⟩ := exec_peek_draws x a s
  exact ⟨_, h, .inl rfl⟩

/-- Both calls on hooks refuse a page that does not exist, for the one reason they have (R157). -/
theorem setHook_mark {i : Instr} (hi : raises i .badPage = true) (x : Sub) (p : Nat) (k : Option Nat) (s : State) :
    MarkRule i s (setHook x p k s) := by
  rcases Nat.lt_or_ge p (s.sub x).npages with h | h
  · rw [setHook_of_lt h]; exact .inl (setSub_refused s x _)
  · rw [setHook_of_le h]; exact .of_refusal hi s

/-- A mode is set with the mark as it was, or not set for want of four name tables (R158, R159). -/
theorem setMirror_mark (m : Mirror) (s : State) :
    (∃ t, setMirror m s = .ok t ∧ t.refused = s.refused) ∨ setMirror m s = .error .badSwap := by
  rcases setMirror_cases m s with ⟨-, h⟩ | ⟨_, -, -, h⟩ | ⟨_, -, -, h⟩
  · exact .inl ⟨_, h, rfl⟩
  · exact .inl ⟨_, h, rfl⟩
  · exact .inr h

theorem exec_setMirroring_mark (code : Nat) (s : State) :
    ∃ t, exec (.setMirroring code) s = .next t ∧ MarkRule (.setMirroring code) s t := by
  change ∃ t, execSetMirroring code s = .next t ∧ _
  unfold execSetMirroring
  split
  · exact ⟨_, rfl, .of_refusal rfl s⟩
  · rename_i m _
    rcases setMirror_mark m s with ⟨t, h, kept⟩ | h <;> rw [h]
    · exact ⟨_, rfl, .inl kept⟩
    · exact ⟨_, rfl, .of_refusal rfl s⟩

/-! ### The host calls -/

/-- A reset keeps the mark (R60). -/
theorem resetTo_refused (hard : Bool) (time : Nat) (s : State) : (resetTo hard time s).refused = s.refused := by
  cases hard <;> rfl

theorem exec_construct_mark (cfg : Setup) (chr nmt : Geometry) (s : State) :
    ∃ t, exec (.construct cfg chr nmt) s = .next t ∧ MarkRule (.construct cfg chr nmt) s t := by
  by_cases allowed : Geometry.ok chr = true ∧ Geometry.ok nmt = true
  · change ∃ t, execConstruct cfg chr nmt s = .next t ∧ _
    rw [execConstruct, construct, if_pos (Bool.and_eq_true_iff.mpr allowed)]
    rcases setMirror_mark .horizontal (rawInstance cfg chr nmt s) with ⟨t, h, kept⟩ | h <;> rw [h]
    · exact ⟨_, rfl, .inl ((resetTo_refused true 0 t).trans kept)⟩
    · exact ⟨_, rfl, .of_refusal rfl s⟩
  · exact ⟨_, exec_construct_of_not_ok allowed cfg s, .of_refusal rfl s⟩

/-- A load that fails is no refusal, and one that does not keeps the mark (R353). -/
theorem exec_restore_mark (chunks : List Chunk) (s : State) :
    ∃ t, exec (.restore chunks) s = .next t ∧ MarkRule (.restore chunks) s t := by
  rcases exec_restore_cases chunks s with h | ⟨t, ⟨-, kept, -⟩, h⟩
  · exact ⟨_, h, .inl rfl⟩
  · exact ⟨_, h, .inl kept⟩

/-- Every call has a next state, and meets the rule. -/
theorem exec_call_mark {i : Instr} (hi : i.format = .call) (s : State) : ∃ t, exec i s = .next t ∧ MarkRule i s t := by
  cases i <;> cases hi
  case set => exact exec_set_mark ..
  case swapBank => exact exec_swapBank_mark ..
  case peek => exact exec_peek_mark ..
  case poke x a d => exact ⟨_, exec_poke x a d s, .inl (setSub_refused s x _)⟩
  case installHook => exact ⟨_, rfl, setHook_mark rfl ..⟩
  case removeHook => exact ⟨_, rfl, setHook_mark rfl ..⟩
  case setMirroring => exact exec_setMirroring_mark ..
  case construct => exact exec_construct_mark ..
  case reset hard time => exact ⟨_, rfl, .inl (resetTo_refused hard time s)⟩
  case update time => exact ⟨_, exec_update time s, .inl (updateTo_refused time s)⟩
  case beginFrame => exact ⟨_, rfl, .inl rfl⟩
  case endFrame => exact ⟨_, rfl, .inl rfl⟩
  case ackNmi => exact ⟨_, rfl, .inl rfl⟩
  case snapshot => exact ⟨_, rfl, .inl rfl⟩
  case restore => exact exec_restore_mark ..

end Sys2Proof.Machine
end

section
open Sys2Proof Sys2Proof.Machine

/-- Settles O10, by the kind of the instruction: neither a port access nor a micro-operation moves the mark, and a call
sets it by the model's own refusal alone. -/
theorem refusalMarksAndChangesNothingElse : Obligations.RefusalMarksAndChangesNothingElse := by
  intro i s t h
  cases hi : i.format with
  | port => exact .inl (by rw [(portEffect_of_exec hi h).frame])
  | call =>
    obtain ⟨u, hu, rule⟩ := exec_call_mark hi s
    cases hu.symm.trans h
    exact rule
  | dot => exact .inl (microKeeps_refused s.refused i hi s t h rfl)

end

section
/-! What moves the bus: the trace and the last address, instruction by instruction (R187, R323, R377). -/

namespace Sys2Proof.Machine

/-- Nothing has been put on the bus. -/
def BusKept (s t : State) : Prop := t.trace = s.trace ∧ t.lastBus = s.lastBus

theorem BusKept.refl (s : State) : BusKept s s := ⟨rfl, rfl⟩

theorem BusKept.trans {s t u : State} (h : BusKept s t) (k : BusKept t u) : BusKept s u :=
  ⟨k.1.trans h.1, k.2.trans h.2⟩

/-! ### The micro-operations that do not fetch -/

theorem emitPixel_busKept (c : Nat) (i : BitVec 5) (s : State) : BusKept s (emitPixel c i s) := by
  rcases emitPixel_eq c i s with ⟨-, -, -, h⟩ | ⟨-, h⟩ <;> rw [h]
  · exact ⟨rfl, rfl⟩
  · exact .refl s

theorem microSprExtra_busKept {s t : State} (h : exec .dotSprExtra s = .next t) : BusKept s t := by
  obtain ⟨_, _, extra, -⟩ := microSprExtra_eq s
  cases (congrArg Host.Outcome.next extra.symm).trans h
  exact ⟨rfl, rfl⟩

theorem exec_dot_busKept {i : Instr} (hi : i.format = .dot) {s t : State} (h : exec i s = .next t)
    (hb : mayMoveBus i s = false) : BusKept s t := by
  cases i <;> cases hi
  case dotNt | dotAt | dotPtLo | dotPtHi | dotDummyNt338 | dotDummyNt340 | dotSprNt2 | dotSprNt4 | dotSprLo
    | dotSprHi => cases hb
  case dotVblSet => cases h; unfold microVblSet; split <;> exact ⟨rfl, rfl⟩
  case dotPixel => cases h; exact emitPixel_busKept _ _ { s with s0hit := _ }
  case dotPixelOff => cases h; exact emitPixel_busKept ..
  case dotSprExtra => exact microSprExtra_busKept h
  case dotSkip => cases h; rw [microSkip_frame s]; exact ⟨rfl, rfl⟩
  all_goals cases h; exact ⟨rfl, rfl⟩

/-! ### The ports -/

theorem portDone_busKept {s t u : State} {r : Reply} (h : portDone s r u = .next t) (kept : BusKept s u) :
    BusKept s t := by
  cases h; exact kept

theorem readLatch_busKept (s : State) : BusKept s (readLatch s).2 := ⟨rfl, rfl⟩

theorem readStatus_busKept (s : State) : BusKept s (readStatus s).2 := by
  obtain ⟨_, _, _, _, -, h⟩ := readStatus_eq s
  rw [h]; exact ⟨rfl, rfl⟩

theorem readOamData_busKept (s : State) : BusKept s (readOamData s).2 := by
  unfold readOamData
  split <;> exact ⟨rfl, rfl⟩

theorem writeOamData_busKept (d : Byte) (s : State) : BusKept s (writeOamData d s) := by
  rw [writeOamData_frame]; exact ⟨rfl, rfl⟩

theorem unlessWarming_busKept {f : State → State} {s : State} (hf : s.warming = false → BusKept s (f s)) :
    BusKept s (unlessWarming f s) := by
  unfold unlessWarming
  split
  · exact .refl s
  · exact hf (Bool.eq_false_iff.mpr ‹_›)

theorem scrollWrite_busKept (d : Byte) (s : State) : BusKept s (scrollWrite d s) := by
  unfold scrollWrite
  split <;> exact ⟨rfl, rfl⟩

/-- Of the writes of port 6 the second alone puts an address on the bus, and not during rendering (R317, R318). -/
theorem addrWrite_busKept {d : Byte} {s : State} (h : s.w = true → s.renderActive = true) :
    BusKept s (addrWrite d s) := by
  unfold addrWrite addrSecond
  dsimp only
  split
  · split
    · exact ⟨rfl, rfl⟩
    · exact absurd (h ‹_›) ‹_›
  · exact ⟨rfl, rfl⟩

section
variable {s : State} (rendering : s.renderActive = true)
include rendering

/-- During rendering port 7 reaches no bus (R323). -/
theorem readData_busKept : BusKept s (readData s).2 := by
  rw [readData, if_pos rendering]
  dsimp only
  rw [increment_of_rendering (s := (latched (readDataRendering s)).2) rendering]
  exact ⟨rfl, rfl⟩

theorem portRead_busKept (p : BitVec 3) : BusKept s (portRead p s).2 := by
  unfold portRead
  split
  · exact readStatus_busKept s
  · split
    · exact readOamData_busKept s
    · split
      · exact readData_busKept rendering
      · exact readLatch_busKept s

theorem dmaRead_busKept (a : CpuAddr) : BusKept s (dmaRead a s).2 := by
  unfold dmaRead
  split
  · exact portRead_busKept rendering _
  · obtain ⟨n, h⟩ := cpuRead_snd a s
    rw [h]; exact ⟨rfl, rfl⟩

theorem dmaFirst_busKept (page : Byte) (n : Nat) : BusKept s (dmaFirst page n s) := by
  induction n with
  | zero => rw [dmaFirst_zero]; exact .refl s
  | succ n ih =>
    have still := (dmaFirst_progress page n s).renderActive.trans rendering
    rw [dmaFirst_succ]
    exact ih.trans ((dmaRead_busKept still _).trans (writeOamData_busKept _ _))

end

/-- A copy from CPU memory reaches no port, and one during rendering no bus. -/
theorem dma_busKept {page : Byte} {s : State} (h : mayMoveBus (.wrDma page) s = false) :
    BusKept s (dmaFirst page 256 s) := by
  rcases Bool.and_eq_false_iff.mp h with memory | active
  · rw [dmaFirst_of_memory memory]; exact ⟨rfl, rfl⟩
  · exact dmaFirst_busKept (by simpa using active) page 256

theorem exec_port_busKept {i : Instr} (hi : i.format = .port) {s t : State} (h : exec i s = .next t)
    (hb : mayMoveBus i s = false) : BusKept s t := by
  cases i <;> cases hi
  case rdCtrl | rdMask | rdOamAddr | rdScroll | rdAddr => exact portDone_busKept h (readLatch_busKept s)
  case rdStatus => exact portDone_busKept h (readStatus_busKept s)
  case rdOamData => exact portDone_busKept h (readOamData_busKept s)
  case rdData => exact portDone_busKept h (readData_busKept (by simpa [mayMoveBus] using hb))
  case wrCtrl => exact portDone_busKept h (unlessWarming_busKept (s := latchByte _ s) fun _ => ⟨rfl, rfl⟩)
  case wrMask => exact portDone_busKept h (unlessWarming_busKept (s := latchByte _ s) fun _ => ⟨rfl, rfl⟩)
  case wrOamData => exact portDone_busKept h (writeOamData_busKept _ s)
  case wrScroll => exact portDone_busKept h (unlessWarming_busKept fun _ => scrollWrite_busKept _ (latchByte _ s))
  case wrAddr d =>
    refine portDone_busKept h
      (unlessWarming_busKept (s := latchByte d s) fun warm => addrWrite_busKept fun second => ?_)
    have warm : s.warming = false := warm
    have second : s.w = true := second
    simpa [mayMoveBus, warm, second] using hb
  case wrData d =>
    have rendering : s.renderActive = true := by simpa [mayMoveBus] using hb
    cases (exec_wrData_of_rendering d rendering).symm.trans h
    exact ⟨rfl, rfl⟩
  case wrDma page =>
    cases (exec_wrDma page s).symm.trans h
    exact dma_busKept hb
  case wrStatus | wrOamAddr => cases h; exact ⟨rfl, rfl⟩

/-! ### The calls -/

/-- What a call but `Update`, `Reset`, `Construct` and `Restore` can move: a substrate, the mirroring mode, the output
buffer, the refusal mark, the draw counter and the reply, and `AckNmi` the request. -/
def CallFrame (i : Instr) (s t : State) : Prop :=
  t = { s with
    chr := t.chr, nmt := t.nmt, mirror := t.mirror, out := t.out, outBound := t.outBound, nmiReq := t.nmiReq
    refused := t.refused, draws := t.draws, reply := t.reply } ∧
  (i ≠ .ackNmi → t.nmiReq = s.nmiReq)

theorem SubstrateEffect.callFrame {s t : State} (h : SubstrateEffect s t) (i : Instr) : CallFrame i s t := by
  obtain ⟨x, c, -, ht⟩ := h
  rw [ht]
  cases x <;> exact ⟨rfl, fun _ => rfl⟩

/-- Every call but the four that run dots or assign the registers outright keeps this frame. -/
theorem callFrame_of_exec {i : Instr} (hi : i.format = .call) {s t : State} (h : exec i s = .next t)
    (hu : ∀ time, i ≠ .update time) (hr : ∀ hard time, i ≠ .reset hard time)
    (hc : ∀ cfg chr nmt, i ≠ .construct cfg chr nmt) (hl : ∀ chunks, i ≠ .restore chunks) : CallFrame i s t := by
  have substrate {o : Host.Outcome State Fault Refusal} (ho : o = .next t)
      (he : ∃ u, o = .next u ∧ SubstrateEffect s u) : CallFrame i s t := by
    obtain ⟨u, hu, effect⟩ := he
    cases hu.symm.trans ho
    exact effect.callFrame i
  cases i <;> cases hi
  case set => exact substrate h (execSet_effect ..)
  case swapBank => exact substrate h (execSwapBank_effect ..)
  case peek => exact substrate h (execPeek_effect ..)
  case poke => exact substrate h (execPoke_effect ..)
  case installHook => exact substrate h ⟨_, rfl, setHook_effect ..⟩
  case removeHook => exact substrate h ⟨_, rfl, setHook_effect ..⟩
  case setMirroring => exact substrate h (execSetMirroring_effect ..)
  case construct => exact absurd rfl (hc _ _ _)
  case reset => exact absurd rfl (hr _ _)
  case update => exact absurd rfl (hu _)
  case restore => exact absurd rfl (hl _)
  case ackNmi => cases h; exact ⟨rfl, fun other => absurd rfl other⟩
  all_goals cases h; exact ⟨rfl, fun _ => rfl⟩

/-- An update with rendering off runs idle dots (R187). -/
theorem updateTo_busKept (time : Nat) {s : State} (off : s.renderOn = false) : BusKept s (updateTo time s) := by
  obtain ⟨n, dots, -⟩ := runUntil_eq_runDots (time + 1 - s.clock) time s
  have idle := runDots_idle (n := n) fun m _ => renderActive_of_renderOn ((runDots_renderOn m s).trans off)
  rw [updateTo, dots, idle.frame]
  exact ⟨rfl, rfl⟩

theorem exec_call_busKept {i : Instr} (hi : i.format = .call) {s t : State} (h : exec i s = .next t)
    (hb : mayMoveBus i s = false) : BusKept s t := by
  by_cases hu : ∃ time, i = .update time
  · obtain ⟨time, rfl⟩ := hu
    cases h
    exact updateTo_busKept time hb
  · have frame := (callFrame_of_exec hi h (fun time e => hu ⟨time, e⟩) (fun _ _ e => by subst e; cases hb)
      (fun _ _ _ e => by subst e; cases hb) (fun _ e => by subst e; cases hb)).1
    rw [frame]
    exact ⟨rfl, rfl⟩

end Sys2Proof.Machine
end

section
open Sys2Proof Sys2Proof.Machine

/-- Settles O12, by the kind of the instruction: the ports that drive the bus do so under the conditions of
`mayMoveBus`, a call assigns it or runs dots, and a micro-operation that does not fetch leaves it. -/
theorem nothingElseMovesTheBus : Obligations.NothingElseMovesTheBus := by
  intro i s t h hb
  cases hi : i.format with
  | port => exact exec_port_busKept hi h hb
  | call => exact exec_call_busKept hi h hb
  | dot => exact exec_dot_busKept hi h hb

end

section
/-! The NMI request: the edge rule ends every dot and every port access, and before it a status read alone can drop the
request (R304, R372). -/

namespace Sys2Proof.Machine

/-- The edge rule of a dot compares `nmiLine` across the whole dot (R372). -/
theorem dotStep_nmiReq (s : State) :
    (dotStep s).nmiReq = (s.nmiReq || (!s.nmiLine && (dotStep s).nmiLine)) := by
  have moved : (tick (dotAdvance (dotBody s))).nmiReq = s.nmiReq := by
    rw [tick_nmiReq, dotAdvance_frame (dotBody s)]
    exact (dotBody_frame s).nmiReq
  rw [dotStep, nmiEdge_nmiReq, nmiEdge_nmiLine, moved]

/-- The request before the edge rule of a port access: not made, and dropped in a cancel slot at most (R304). -/
def RequestRule (s u : State) : Prop :=
  (u.nmiReq = true → s.nmiReq = true) ∧ (s.nmiReq = true → u.nmiReq = true ∨ inCancelSlots s = true)

theorem RequestRule.of_eq {s u : State} (h : u.nmiReq = s.nmiReq) : RequestRule s u := by
  rw [RequestRule, h]; exact ⟨id, .inl⟩

theorem RequestRule.trans {s t u : State} (h : RequestRule s t) (slots : inCancelSlots t = inCancelSlots s)
    (k : RequestRule t u) : RequestRule s u := by
  obtain ⟨unmade, dropped⟩ := h
  obtain ⟨unmade', dropped'⟩ := k
  rw [slots] at dropped'
  exact ⟨unmade ∘ unmade', fun req => (dropped req).elim dropped' .inr⟩

/-! ### The ports -/

theorem readStatus_request (s : State) : RequestRule s (readStatus s).2 := by
  obtain ⟨keep, _, _, _, -, read⟩ := readStatus_eq s
  rw [RequestRule, read]
  simp only [Bool.and_eq_true, Bool.or_eq_true, Bool.not_eq_true']
  refine ⟨And.left, fun req => ?_⟩
  cases cancel : inCancelSlots s
  · exact .inl ⟨req, .inr rfl⟩
  · exact .inr rfl

theorem readOamData_nmiReq (s : State) : (readOamData s).2.nmiReq = s.nmiReq := by
  unfold readOamData
  split <;> rfl

theorem increment_nmiReq (s : State) : (increment s).nmiReq = s.nmiReq := by
  unfold increment
  split <;> rfl

theorem readDataIdle_nmiReq (s : State) : (readDataIdle s).2.nmiReq = s.nmiReq := by
  rcases Nat.lt_or_ge (vBus s.v).toNat 0x3F00 with memory | palette
  · obtain ⟨n, read⟩ := readDataIdle_of_memory memory
    rw [read]; rfl
  · obtain ⟨n, read⟩ := readDataIdle_of_palette palette
    rw [read]; rfl

theorem readData_nmiReq (s : State) : (readData s).2.nmiReq = s.nmiReq := by
  refine (increment_nmiReq _).trans ?_
  change (if s.renderActive then readDataRendering s else readDataIdle s).2.nmiReq = _
  split
  · rfl
  · exact readDataIdle_nmiReq s

theorem portRead_request (p : BitVec 3) (s : State) : RequestRule s (portRead p s).2 := by
  unfold portRead
  split
  · exact readStatus_request s
  · split
    · exact .of_eq (readOamData_nmiReq s)
    · split
      · exact .of_eq (readData_nmiReq s)
      · exact .of_eq rfl

theorem unlessWarming_nmiReq {f : State → State} {s : State} (hf : (f s).nmiReq = s.nmiReq) :
    (unlessWarming f s).nmiReq = s.nmiReq := by
  unfold unlessWarming
  split
  · rfl
  · exact hf

theorem writeOamData_nmiReq (d : Byte) (s : State) : (writeOamData d s).nmiReq = s.nmiReq := by
  rw [writeOamData_frame]

theorem scrollWrite_nmiReq (d : Byte) (s : State) : (scrollWrite d s).nmiReq = s.nmiReq := by
  unfold scrollWrite
  split <;> rfl

theorem addrWrite_nmiReq (d : Byte) (s : State) : (addrWrite d s).nmiReq = s.nmiReq := by
  unfold addrWrite addrSecond
  dsimp only
  split
  · split <;> rfl
  · rfl

theorem ppuWrite_nmiReq (a : BusAddr) (d : Byte) (s : State) : (ppuWrite a d s).nmiReq = s.nmiReq := by
  unfold ppuWrite
  split
  · rfl
  · split <;> rfl

theorem writeData_nmiReq (d : Byte) (s : State) : (writeData d s).nmiReq = s.nmiReq := by
  refine (increment_nmiReq _).trans ?_
  split
  · rfl
  · exact ppuWrite_nmiReq ..

/-- Of the bytes of a copy those that read the status port can drop the request; the position stands meanwhile
(R330). -/
theorem dmaFirst_request (page : Byte) (n : Nat) (s : State) : RequestRule s (dmaFirst page n s) := by
  induction n with
  | zero => rw [dmaFirst_zero]; exact .of_eq rfl
  | succ n ih =>
    have slots : inCancelSlots (dmaFirst page n s) = inCancelSlots s := by
      rw [(dmaFirst_progress page n s).frame]; rfl
    have read : RequestRule (dmaFirst page n s) (dmaRead (page ++ BitVec.ofNat 8 n) (dmaFirst page n s)).2 := by
      unfold dmaRead
      split
      · exact portRead_request ..
      · obtain ⟨m, h⟩ := cpuRead_snd (page ++ BitVec.ofNat 8 n) (dmaFirst page n s)
        rw [h]; exact .of_eq rfl
    rw [dmaFirst_succ, RequestRule, dmaByte]
    dsimp only
    rw [writeOamData_nmiReq]
    exact ih.trans slots read

/-- Every port access ends with the edge rule, over a state whose request is as it was or dropped in a cancel slot. -/
theorem exec_port_edge {i : Instr} (hi : i.format = .port) (s : State) :
    ∃ r u, exec i s = .next (answer r (nmiEdge s u)) ∧ RequestRule s u := by
  cases i <;> cases hi
  case rdCtrl | rdMask | rdOamAddr | rdScroll | rdAddr => exact ⟨_, (readLatch s).2, rfl, .of_eq rfl⟩
  case rdStatus => exact ⟨_, _, rfl, readStatus_request s⟩
  case rdOamData => exact ⟨_, _, rfl, .of_eq (readOamData_nmiReq s)⟩
  case rdData => exact ⟨_, _, rfl, .of_eq (readData_nmiReq s)⟩
  case wrCtrl d => exact ⟨_, _, rfl, .of_eq (unlessWarming_nmiReq (s := latchByte d s) rfl)⟩
  case wrMask d => exact ⟨_, _, rfl, .of_eq (unlessWarming_nmiReq (s := latchByte d s) rfl)⟩
  case wrStatus d => exact ⟨_, latchByte d s, rfl, .of_eq rfl⟩
  case wrOamAddr d => exact ⟨_, writeOamAddr d s, rfl, .of_eq rfl⟩
  case wrOamData d => exact ⟨_, _, rfl, .of_eq (writeOamData_nmiReq d s)⟩
  case wrScroll d => exact ⟨_, _, rfl, .of_eq (unlessWarming_nmiReq (scrollWrite_nmiReq d (latchByte d s)))⟩
  case wrAddr d => exact ⟨_, _, rfl, .of_eq (unlessWarming_nmiReq (addrWrite_nmiReq d (latchByte d s)))⟩
  case wrData d => exact ⟨_, _, rfl, .of_eq (writeData_nmiReq d s)⟩
  case wrDma page => exact ⟨_, _, exec_wrDma page s, dmaFirst_request page 256 s⟩

end Sys2Proof.Machine
end

section
open Sys2Proof Sys2Proof.Machine

/-- Settles O13: a dot and a port access end with the edge rule, which the request goes into as it was but for a status
read's drop in a cancel slot; the frame of the other calls has neither `vbl` nor `ctrl`. -/
theorem nmiRequestFollowsTheEdge : Obligations.NmiRequestFollowsTheEdge := by
  refine ⟨dotStep_nmiReq, fun i s t hi h => ?port, fun i s t hi h hu hr hc hl => ?call⟩
  case port =>
    obtain ⟨r, u, done, rule⟩ := exec_port_edge hi s
    cases done.symm.trans h
    obtain ⟨unmade, dropped⟩ := rule
    rw [answer_nmiReq, answer_nmiLine, nmiEdge_nmiReq, nmiEdge_nmiLine, ← inCancelSlots_iff]
    simp only [Bool.or_eq_true, Bool.and_eq_true, Bool.not_eq_true']
    exact ⟨fun low high => .inr ⟨low, high⟩, .imp_left unmade, fun req => (dropped req).imp_left .inl⟩
  case call =>
    obtain ⟨frame, request⟩ := callFrame_of_exec hi h hu hr hc hl
    exact ⟨by rw [frame], by rw [frame], request⟩

end

section
/-! What a dot does not read: the output buffer, its binding and the bus trace. A micro-operation leaves all three, or
adds a bus event to the trace, or writes a pixel into the buffer (R287, R376). -/

namespace Sys2Proof.Machine

/-- The state with another output buffer, bound or not, and another history. -/
def State.withOutputs (out : Store 9) (bound : Bool) (trace : List BusEvent) (s : State) : State :=
  { s with out := out, outBound := bound, trace := trace }

/-- An operation that does not read its outputs: over any buffer and history it adds the same events, and does the same
to everything else but the buffer. -/
def BlindToOutputs (f : State → State) : Prop :=
  ∀ s, ∃ events, (f s).trace = s.trace ++ events ∧ ∀ out bound trace, ∃ out',
    f (s.withOutputs out bound trace) = (f s).withOutputs out' bound (trace ++ events)

/-- An operation that neither reads nor moves its outputs. -/
def IgnoresOutputs (f : State → State) : Prop :=
  ∀ out bound trace s, f (State.withOutputs out bound trace s) = (f s).withOutputs out bound trace

theorem IgnoresOutputs.blind {f : State → State} (h : IgnoresOutputs f) : BlindToOutputs f := by
  intro s
  have same : f s = (f s).withOutputs s.out s.outBound s.trace := h s.out s.outBound s.trace s
  refine ⟨[], ?_, fun out bound trace => ⟨out, ?_⟩⟩
  · rw [same, List.append_nil]; rfl
  · rw [h, List.append_nil]

theorem BlindToOutputs.comp {f g : State → State} (hg : BlindToOutputs g) (hf : BlindToOutputs f) :
    BlindToOutputs fun s => g (f s) := by
  intro s
  obtain ⟨events, grown, same⟩ := hf s
  obtain ⟨more, grown', same'⟩ := hg (f s)
  refine ⟨events ++ more, by rw [grown', grown, List.append_assoc], fun out bound trace => ?_⟩
  obtain ⟨out', first⟩ := same out bound trace
  obtain ⟨out'', second⟩ := same' out' bound (trace ++ events)
  refine ⟨out'', ?_⟩
  rw [← List.append_assoc]
  exact (congrArg g first).trans second

theorem BlindToOutputs.gate {f : State → State} (h : BlindToOutputs f) (c : Bool) : BlindToOutputs (gate c f) := by
  cases c
  · exact IgnoresOutputs.blind fun _ _ _ _ => rfl
  · exact h

/-! ### Reads of the bus -/

section
variable {s t : State} (chr : t.chr = s.chr) (nmt : t.nmt = s.nmt) (draws : t.draws = s.draws)
include chr nmt draws

/-- A `Peek` reads the substrates and the draw counter alone. -/
theorem peekSub_congr (x : Sub) (a : Nat) :
    ∃ b n, peekSub x a s = (b, { s with draws := n }) ∧ peekSub x a t = (b, { t with draws := n }) := by
  have sub : t.sub x = s.sub x := by cases x; exacts [chr, nmt]
  unfold peekSub drawByte
  rw [sub, draws]
  dsimp only
  split
  · exact ⟨_, _, rfl, rfl⟩
  · split
    · exact ⟨_, s.draws, rfl, by rw [← draws]⟩
    · exact ⟨_, _, rfl, rfl⟩

/-- A read of the bus reads the memories and the draw counter alone. -/
theorem ppuRead_congr (pal : t.pal = s.pal) (a : BusAddr) :
    ∃ b n, ppuRead a s = (b, { s with draws := n }) ∧ ppuRead a t = (b, { t with draws := n }) := by
  unfold ppuRead
  split
  · exact peekSub_congr chr nmt draws ..
  · split
    · exact peekSub_congr chr nmt draws ..
    · have colour : t.palRead (a.setWidth 5) = s.palRead (a.setWidth 5) := by rw [State.palRead, pal, State.palRead]
      exact ⟨_, s.draws, rfl, by rw [colour, ← draws]⟩

end

theorem ppuRead_withOutputs (out : Store 9) (bound : Bool) (trace : List BusEvent) (a : BusAddr) (s : State) :
    ppuRead a (s.withOutputs out bound trace) = ((ppuRead a s).1, (ppuRead a s).2.withOutputs out bound trace) := by
  obtain ⟨b, n, read, read'⟩ :=
    ppuRead_congr (s := s) (t := s.withOutputs out bound trace) rfl rfl rfl rfl a
  rw [read, read']
  rfl

/-- An operation that fetches, and with the byte does what does not read the outputs. -/
theorem BlindToOutputs.of_fetch {f : State → State} (a : State → BusAddr) (g : State → Byte → State → State)
    (hf : ∀ s, f s = g s (busFetch (a s) s).1 (busFetch (a s) s).2 := by intros; rfl)
    (ha : ∀ out bound trace s, a (State.withOutputs out bound trace s) = a s := by intros; rfl)
    (hg : ∀ out bound trace trace' s b t,
      g (State.withOutputs out bound trace s) b (State.withOutputs out bound trace' t) =
        (g s b t).withOutputs out bound trace' := by intros; rfl)
    (ht : ∀ s b t, (g s b t).trace = t.trace := by intros; rfl) : BlindToOutputs f := by
  intro s
  refine ⟨[⟨s.clock, a s, !s.lastBus.getLsbD 12 && (a s).getLsbD 12⟩], ?_, fun out bound trace => ⟨out, ?_⟩⟩
  · obtain ⟨n, read⟩ := busFetch_eq (a s) s
    rw [hf, ht, read]; rfl
  · obtain ⟨b, n, read, read'⟩ := ppuRead_congr (s := emitBus (a s) s)
      (t := emitBus (a s) (s.withOutputs out bound trace)) rfl rfl rfl rfl (a s)
    rw [hf, hf, ha, busFetch, busFetch, read, read']
    exact hg out bound trace _ s b { emitBus (a s) s with draws := n }

/-! ### The micro-operations -/

/-- A pixel goes to the buffer if anywhere, and what is bound there is not read. -/
theorem emitPixel_blind (c : Nat) (i : BitVec 5) : BlindToOutputs (emitPixel c i) := by
  have written (u : State) : ∃ out, emitPixel c i u = { u with out := out } := by
    rcases emitPixel_eq c i u with ⟨-, -, -, h⟩ | ⟨-, h⟩
    · exact ⟨_, h⟩
    · exact ⟨u.out, h⟩
  intro s
  obtain ⟨out₀, here⟩ := written s
  refine ⟨[], by rw [here, List.append_nil], fun out bound trace => ?_⟩
  obtain ⟨out', there⟩ := written (s.withOutputs out bound trace)
  exact ⟨out', by rw [here, there, List.append_nil]; rfl⟩

theorem fillExtra_withOutputs (out : Store 9) (bound : Bool) (trace : List BusEvent) (s : State) (k : Nat) :
    fillExtra (s.withOutputs out bound trace) k = (fillExtra s k).withOutputs out bound trace := by
  have same : (s.withOutputs out bound trace).slotEntry k = s.slotEntry k := rfl
  unfold fillExtra
  rw [same]
  split
  · rfl
  · simp only [ppuRead_withOutputs]
    rfl

theorem microSprExtra_ignoresOutputs : IgnoresOutputs microSprExtra := by
  intro out bound trace s
  unfold microSprExtra
  generalize (List.range 56).map (· + 8) = ks
  induction ks generalizing s with
  | nil => rfl
  | cons k ks ih => rw [List.foldl_cons, List.foldl_cons, fillExtra_withOutputs, ih]

theorem advance_ignoresOutputs : IgnoresOutputs advance := by
  intro out bound trace s
  simp only [advance, apply_ite (State.withOutputs out bound trace)]
  rfl

theorem microSkip_ignoresOutputs : IgnoresOutputs microSkip := by
  intro out bound trace s
  simp only [microSkip, advance_ignoresOutputs out bound trace s, apply_ite (State.withOutputs out bound trace)]
  rfl

theorem microVblSet_ignoresOutputs : IgnoresOutputs microVblSet := by
  intro out bound trace s
  simp only [microVblSet, apply_ite (State.withOutputs out bound trace)]
  rfl

theorem microEval_ignoresOutputs : IgnoresOutputs microEval := by
  intro out bound trace s
  have same : evaluate (s.withOutputs out bound trace) = evaluate s := evaluate_congr rfl rfl rfl rfl
  rw [microEval, same, microEval]
  rfl

theorem microPixel_blind : BlindToOutputs microPixel := by
  intro s
  exact emitPixel_blind s.column (composite (bgPixel s.column s) (sprPixel s.column s))
    { s with s0hit := s.s0hit || zeroHit (bgPixel s.column s) (sprPixel s.column s) s.column }

theorem microPixelOff_blind : BlindToOutputs microPixelOff := fun s => emitPixel_blind s.column (offIndex s.v) s

theorem nametableFetch_blind : BlindToOutputs fun s => (busFetch (ntAddr s.v) s).2 :=
  .of_fetch (fun s => ntAddr s.v) (fun _ _ t => t)

theorem performed_blind {i : Instr} (hi : i.format = .dot) : BlindToOutputs (performed i) := by
  cases i <;> cases hi
  case dotVblSet => exact microVblSet_ignoresOutputs.blind
  case dotVblClr | dotWarmCount | dotShift | dotIncX | dotIncY | dotHCopy | dotVCopy | dotOamZero | dotIdle =>
    exact IgnoresOutputs.blind fun _ _ _ _ => rfl
  case dotPixel => exact microPixel_blind
  case dotPixelOff => exact microPixelOff_blind
  case dotEval => exact microEval_ignoresOutputs.blind
  case dotNt =>
    exact .of_fetch (fun s => ntAddr s.v) (fun _ b t => { t with ntLatch := b })
  case dotAt =>
    exact .of_fetch (fun s => atAddr s.v) (fun s b t => { t with atLatch := atGroup s.v b })
  case dotPtLo =>
    exact .of_fetch (fun s => bgAddr s.ctrl s.ntLatch s.v) (fun _ b t => { t with ptLo := b })
  case dotPtHi =>
    exact .of_fetch (fun s => bgAddr s.ctrl s.ntLatch s.v ||| 8)
      (fun _ b t => { t with
        ptHi := b, shLo := reload t.shLo (t.ptLo.setWidth 16), shHi := reload t.shHi (b.setWidth 16)
        atShLo := reload t.atShLo (groupFill (t.atLatch.getLsbD 0))
        atShHi := reload t.atShHi (groupFill (t.atLatch.getLsbD 1)) })
  case dotSprLo =>
    exact .of_fetch (fun s => sprAddr s.ctrl (s.slotEntry s.slot) s.line) (fun _ b t => { t with sprLo := b })
  case dotSprHi =>
    exact .of_fetch (fun s => sprAddr s.ctrl (s.slotEntry s.slot) s.line ||| 8)
      (fun s hi t => { t with obuf := t.obuf.set s.slot (slotOf (s.slotEntry s.slot) hi s.sprLo) })
  case dotSprNt2 | dotSprNt4 | dotDummyNt338 | dotDummyNt340 => exact nametableFetch_blind
  case dotSprExtra => exact microSprExtra_ignoresOutputs.blind
  case dotSkip => exact microSkip_ignoresOutputs.blind

/-! ### Dots -/

theorem runRows_blind {rows : List DotRow} (h : ∀ r ∈ rows, r.instr.format = .dot) (cfg : Setup) (line dot : BitVec 9)
    (on : Bool) : BlindToOutputs (runRows rows cfg line dot on) := by
  induction rows with
  | nil => exact IgnoresOutputs.blind fun _ _ _ _ => rfl
  | cons r rows ih =>
    obtain ⟨hr, hrows⟩ := List.forall_mem_cons.mp h
    exact (ih hrows).comp ((performed_blind hr).gate _)

/-- A dot's rows are selected by its position and the mask, which are no outputs. -/
theorem runSchedule_blind : BlindToOutputs runSchedule := fun s =>
  runRows_blind format_of_mem_dotRows s.cfg s.line s.dot s.renderOn s

theorem dotStep_blind : BlindToOutputs dotStep := by
  intro s
  have dot (u : State) : dotStep u =
      nmiEdge u (tick (gate (!u.at u.cfg.std.pre 339) advance (runSchedule u))) := by
    rw [dotStep_eq]
    cases u.at u.cfg.std.pre 339 <;> rfl
  obtain ⟨events, grown, same⟩ :=
    (advance_ignoresOutputs.blind.gate (!s.at s.cfg.std.pre 339)).comp runSchedule_blind s
  refine ⟨events, by rw [dot]; exact grown, fun out bound trace => ?_⟩
  obtain ⟨out', moved⟩ := same out bound trace
  refine ⟨out', ?_⟩
  rw [dot, dot]
  exact congrArg (fun t => nmiEdge s (tick t)) moved

theorem runUntil_blind (fuel time : Nat) : BlindToOutputs (runUntil fuel time) := by
  induction fuel with
  | zero => exact IgnoresOutputs.blind fun _ _ _ _ => rfl
  | succ fuel ih =>
    intro s
    by_cases due : s.clock ≤ time
    · obtain ⟨events, grown, same⟩ := ih.comp dotStep_blind s
      refine ⟨events, by rw [runUntil_of_le due]; exact grown, fun out bound trace => ?_⟩
      rw [runUntil_of_le due, runUntil_of_le (s := s.withOutputs out bound trace) due]
      exact same out bound trace
    · have late := Nat.lt_of_not_le due
      refine ⟨[], by rw [runUntil_of_lt late, List.append_nil], fun out bound trace => ⟨out, ?_⟩⟩
      rw [runUntil_of_lt late, runUntil_of_lt (s := s.withOutputs out bound trace) late, List.append_nil]

theorem updateTo_blind (time : Nat) : BlindToOutputs (updateTo time) := fun s =>
  runUntil_blind (time + 1 - s.clock) time s

end Sys2Proof.Machine
end

section
open Sys2Proof Sys2Proof.Machine

/-- Settles O21: every micro-operation leaves the outputs, adds its event to whatever trace there is, or writes its
pixel to whatever buffer there is, and an update is made of them. -/
theorem dotsDoNotReadTheirOutputs : Obligations.DotsDoNotReadTheirOutputs := by
  intro time s
  obtain ⟨events, grown, same⟩ := updateTo_blind time s
  refine ⟨_, events, exec_update time s, grown, fun out bound trace => ?_⟩
  obtain ⟨out', moved⟩ := same out bound trace
  exact ⟨out', congrArg (fun t => Host.Outcome.next (answer .nothing t)) moved⟩

end

section
/-! The two launches: what the power-on construction leaves, and what a load keeps of it (R344, R353, R407). -/

namespace Sys2Proof.Machine

/-! ### The power-on launch -/

/-- A power-on launch is what the block's construction builds, reset hard (R344). -/
theorem PowerOn.state_eq {s : State} (h : PowerOn s) :
    ∃ cfg before, s = answer .nothing (resetTo true 0 (blockInstance cfg before)) := by
  obtain ⟨cfg, before, built⟩ := h
  cases (exec_construct_block cfg before).symm.trans built
  exact ⟨cfg, before, rfl⟩

/-- The block's substrates, freshly built, are well formed. -/
theorem blockInstance_subs_wf (cfg : Setup) (s : State) :
    (blockInstance cfg s).chr.wf = true ∧ (blockInstance cfg s).nmt.wf = true := by
  constructor
  · change (buildSubstrate chrGeometry [placeholderSource, placeholderSource]).wf = true
    decide
  · change Substrate.wf { buildSubstrate nmtGeometry [ciramSource, placeholderSource] with
      pt := [⟨0, 0⟩, ⟨0, 0⟩, ⟨0, 1024⟩, ⟨0, 1024⟩] } = true
    decide

/-- A hard reset draws OAM and the palette, whatever they held (R60). -/
theorem resetTo_hard_blank (time : Nat) (s : State) :
    resetTo true time { s with oam := Store.blank 0, pal := Store.blank 0 } = resetTo true time s := rfl

theorem PowerOn.wf {s : State} (h : PowerOn s) (cpu : Cells.rising 0 s.cpu = true) : s.wf = true := by
  obtain ⟨cfg, before, rfl⟩ := h.state_eq
  obtain ⟨hchr, hnmt⟩ := blockInstance_subs_wf cfg before
  rw [answer_wf, ← resetTo_hard_blank]
  exact resetTo_wf true 0 ⟨hchr, hnmt, rfl, rfl, rfl, cpu⟩

/-- The block's geometry (R13, R344). -/
def State.blockShaped (s : State) : Prop :=
  (s.chr.space, s.chr.page, s.chr.nsrc) = (8192, 1024, 2) ∧ (s.nmt.space, s.nmt.page, s.nmt.nsrc) = (4096, 1024, 2)

/-- A power-on launch has no bus event, no output bound, and the block's geometry. -/
theorem PowerOn.built {s : State} (h : PowerOn s) : s.trace = [] ∧ s.outBound = false ∧ s.blockShaped := by
  obtain ⟨cfg, before, rfl⟩ := h.state_eq
  exact ⟨rfl, rfl, rfl, rfl⟩

theorem renderOn_of_mask_zero {s : State} (h : s.mask = 0) : s.renderOn = false := by rw [State.renderOn, h]; rfl

theorem nmiLine_of_ctrl_zero {s : State} (h : s.ctrl = 0) : s.nmiLine = false := by
  rw [State.nmiLine, h]; exact Bool.and_false _

/-- A power-on launch stands at the first dot of an even frame, warming up, with rendering and the interrupt off. -/
theorem PowerOn.stands {s : State} (h : PowerOn s) :
    s.onSchedule = true ∧ s.line = 0 ∧ s.dot = 0 ∧ s.odd = false ∧ s.warming = true ∧ s.renderOn = false ∧
      s.nmiLine = false := by
  obtain ⟨cfg, before, rfl⟩ := h.state_eq
  exact ⟨(answer_onSchedule ..).trans (resetTo_onSchedule true 0 _), rfl, rfl, rfl, rfl, renderOn_of_mask_zero rfl,
    nmiLine_of_ctrl_zero rfl⟩

/-! ### What a load leaves of the CPU collaborator -/

section
variable {t : State} {cpu : List (Nat × Byte)} (h : t.cpu = cpu)
include h

theorem decReg_cpu : Yields (decReg t) (·.cpu = cpu) := by
  have ports {u : State} (h : u.cpu = cpu) : Yields (decRegPorts u) (·.cpu = cpu) :=
    .skip fun _ => .skip fun _ => .skip fun _ => .skip fun _ => .skip fun _ => .skip fun _ => .skip fun _ =>
      .skip fun _ => .pure h
  have engine {u : State} (h : u.cpu = cpu) : Yields (decRegEngine u) (·.cpu = cpu) :=
    .skip fun _ => .skip fun _ => .skip fun _ => .skip fun _ => .skip fun _ => .skip fun _ => .skip fun _ =>
      .skip fun _ => .pure h
  have pipeline {u : State} (h : u.cpu = cpu) : Yields (decRegPipeline u) (·.cpu = cpu) :=
    .skip fun _ => .skip fun _ => .skip fun _ => .skip fun _ => .skip fun _ => .skip fun _ => .skip fun _ =>
      .skip fun _ => .skip fun _ => .pure h
  exact .bind (ports h) fun _ h => .bind (engine h) fun _ h => .bind (pipeline h) fun _ h =>
    .skip fun _ => .skip fun _ => .skip fun _ => .pure h

theorem decodeTag_cpu (tag : Tag) : Yields (decodeTag t tag) (·.cpu = cpu) := by
  cases tag with
  | reg => exact decReg_cpu h
  | scroll => exact .skip fun _ => .skip fun _ => .skip fun _ => .skip fun _ => .skip fun _ => .pure h
  | oam => exact .skip fun _ => .pure h
  | banks =>
    exact .skip fun _ => .skip fun _ => .skip fun _ => .skip fun _ => .skip fun _ => .skip fun _ => .skip fun _ =>
      .pure h
  | pal => exact .skip fun _ => .pure h
  | unknown k => intro bytes u rest he; cases he; exact h

theorem restoreAll_cpu {chunks : List Chunk} {u : State} (hu : restoreAll chunks t = some u) : u.cpu = cpu := by
  induction chunks generalizing t with
  | nil => cases hu; exact h
  | cons c rest ih =>
    unfold restoreAll at hu
    split at hu
    · exact ih (decodeTag_cpu h c.tag _ _ _ (decodeTag_of_restoreChunk ‹_›)) hu
    · cases hu

end

/-! ### The restore launch -/

/-- A load that hands nothing back has read every chunk (R353). -/
theorem restoreAll_of_reply {chunks : List Chunk} {s t : State} (h : exec (.restore chunks) s = .next t)
    (reply : t.reply = .nothing) :
    ∃ u, restoreAll chunks s = some u ∧ t = answer .nothing { u with trace := [] } := by
  change execRestore chunks s = _ at h
  rw [execRestore] at h
  split at h
  · cases h; exact ⟨_, ‹_›, rfl⟩
  · cases h; cases reply

/-- A load keeps the geometry (R354). -/
theorem LoadFrame.blockShaped {s t : State} (h : LoadFrame s t) (hs : s.blockShaped) : t.blockShaped := by
  obtain ⟨⟨-, same⟩, -⟩ := h
  obtain ⟨hspace, hpage, -, hsrc⟩ : s.chr.Alike t.chr := same .chr
  obtain ⟨kspace, kpage, -, ksrc⟩ : s.nmt.Alike t.nmt := same .nmt
  rw [State.blockShaped, ← hspace, ← hpage, ← hsrc, ← kspace, ← kpage, ← ksrc]
  exact hs

/-- A restore launch is a power-on launch with every chunk read into it, and the history dropped (R353). -/
theorem RestoreLaunch.state_eq {s : State} (h : RestoreLaunch s) : ∃ built chunks u,
    PowerOn built ∧ restoreAll chunks built = some u ∧ s = answer .nothing { u with trace := [] } := by
  obtain ⟨built, chunks, on, load, reply⟩ := h
  obtain ⟨u, read, hs⟩ := restoreAll_of_reply load reply
  exact ⟨built, chunks, u, on, read, hs⟩

theorem RestoreLaunch.wf {s : State} (h : RestoreLaunch s) (cpu : Cells.rising 0 s.cpu = true) : s.wf = true := by
  obtain ⟨built, chunks, u, on, read, rfl⟩ := h.state_eq
  have known : u.cpu = built.cpu := restoreAll_cpu rfl read
  have risen : Cells.rising 0 u.cpu = true := cpu
  have loaded : u.wf = true := restoreAll_wf read (on.wf (known ▸ risen))
  exact loaded

theorem RestoreLaunch.built {s : State} (h : RestoreLaunch s) :
    s.trace = [] ∧ s.outBound = false ∧ s.blockShaped := by
  obtain ⟨built, chunks, u, on, read, rfl⟩ := h.state_eq
  obtain ⟨-, unbound, shaped⟩ := on.built
  have frame := restoreAll_frame (.refl built) read
  have bound : u.outBound = built.outBound := by obtain ⟨-, -, -, bound⟩ := frame; exact bound
  exact ⟨rfl, bound.trans unbound, frame.blockShaped shaped⟩

end Sys2Proof.Machine
end

section
open Sys2Proof Sys2Proof.Machine

/-- Settles O48, launch by launch: the construction's fields are those of the model's hard reset, and a load
keeps well-formedness, the geometry and the binding. -/
theorem launchesAreWellFormed : Obligations.LaunchesAreWellFormed := by
  intro s launch
  rcases launch with on | restored
  · obtain ⟨trace, unbound, chr, nmt⟩ := on.built
    exact ⟨on.wf, trace, unbound, chr, nmt, PowerOn.stands⟩
  · obtain ⟨trace, unbound, chr, nmt⟩ := restored.built
    exact ⟨restored.wf, trace, unbound, chr, nmt, PowerOn.stands⟩

end
